-- ==== Sys2Proof/Word.lean ====
section
/-! DEFINITION. Word and field types (spec/00_scope.md R5, R9, R10). -/

namespace Sys2Proof

/-- A word: the 16-bit register, address and instruction-word width (R5). -/
abbrev Word := BitVec 16

/-- A byte: the 8-bit memory location and port datum (R5, R9). -/
abbrev Byte := BitVec 8

/-- A nibble: a 4-bit field of an instruction word (R9, 30_encoding.md R91). -/
abbrev Nibble := BitVec 4

/-- An architectural register index, 0 to 15 (10_state.md R20). -/
abbrev Reg := BitVec 4

/-- A port number within the port space, 0 to 255 (20_memory.md R60). -/
abbrev PortNo := BitVec 8

end Sys2Proof
end

