-- ==== Sys2Proof/Config.lean ====
section
/-! DEFINITION. What is fixed for a machine and not by its instructions: the defaults of the model's parameters
(spec/00_scope.md R6) and the one free value, what a port read handler answers. -/

namespace Sys2Proof

/-- `BASE`, where the image is loaded and execution starts; 0x0100 is R6's default (log 2). -/
def Config.base : Word := 0x0100#16

/-- `MEM_INIT`, what a byte of memory that nothing has written reads as; 0x00 everywhere is R6's default (D32, log 4). -/
def Config.memInit : Byte := 0x00#8

/-- FREE VALUE (log 7). The byte the `k`-th call of a port read handler answers once the listed answers
(`Env.answers`) are used up: 20_memory.md R72 calls it an input the block does not control, U12 "any value: an oracle
indexed by call order". It has no body, so nothing can be proved of it. -/
opaque Config.portByte (k : Nat) : Byte

end Sys2Proof
end

