-- ==== Sys2Proof/Machine/State.lean ====
section
/-! DEFINITION. The machine's state as plain data, the ways a step can stop, and reset
(spec/10_state.md, spec/20_memory.md R60, spec/70_reset_and_hazards.md R350). -/

namespace Sys2Proof.Machine

/-- The five flags (10_state.md R31): negative, zero, carry, signed overflow, half carry. -/
structure Flags where
  n : Bool
  z : Bool
  c : Bool
  v : Bool
  h : Bool
  deriving DecidableEq, Repr

/-- The kinds of fault (60_exceptions.md R310). -/
inductive FaultKind where
  /-- The fetched word is not a defined encoding (R313). -/
  | undefinedOpcode
  /-- An instruction word would be read from beyond 0xFFFF (R314). -/
  | truncatedFetch
  /-- A 2-byte data access at 0xFFFF (R315). -/
  | memOutOfRange
  /-- `IN` or `OUT` with a port number above 255 (R316). -/
  | portOutOfRange
  /-- A zero divisor (R317). -/
  | divideByZero
  deriving DecidableEq, Repr

/-- `RUN` (10_state.md R39). -/
inductive RunState where
  /-- Steps are taken. -/
  | running
  /-- `HALT` was executed: terminal, a normal end. -/
  | halted
  /-- A fault stopped the machine: terminal, with its kind and the faulting instruction's address. -/
  | faulted (kind : FaultKind) (addr : Word)
  deriving DecidableEq, Repr

/-- A physical register: `R[i]` of the primary array or `S[j]` of the shadow array (10_state.md R20). -/
inductive PhysReg where
  | primary (i : Reg)
  | shadow (j : BitVec 3)
  deriving DecidableEq, Repr

/-- Memory: (address, byte) pairs, addresses strictly rising, no entry equal to what an unlisted address reads as
(log 5). An unlisted address reads as `Config.memInit`. -/
abbrev Memory := List Host.Cell

/-- What the block reports to its surroundings (00_scope.md R7): the port-handler calls of 45_io.md R282 and the fault
report of 60_exceptions.md R312 with its diagnostic detail (log 9). -/
inductive Output where
  | portRead (port : PortNo) (value : Byte)
  | portWrite (port : PortNo) (value : Byte)
  | fault (kind : FaultKind) (addr : Word) (info : Word)
  deriving DecidableEq, Repr

/-- The environment's side of the interface as plain data (00_scope.md R6, R7): parameters and inputs the step reads,
outputs the step appends (logs 6 to 9). -/
structure Env where
  /-- The ports that have a read handler (20_memory.md R69). -/
  readPorts : List PortNo
  /-- The ports that have a write handler (20_memory.md R70). -/
  writePorts : List PortNo
  /-- The bytes read handlers will answer, in call order; past the end the answer is `Config.portByte` (R72, U12). -/
  answers : List Byte
  /-- How many read-handler calls have been made: the index of the free value. -/
  reads : Nat
  /-- Whether an `irq` event arrives at each coming step boundary; past the end none does (60_exceptions.md R318). -/
  irqs : List Bool
  /-- Port calls and fault reports made so far, oldest first. -/
  outputs : List Output
  deriving DecidableEq, Repr

/-- The machine's state (10_state.md section 1, 20_memory.md R60) and, in `env`, the environment's side. -/
structure State where
  /-- `R[0]` to `R[15]` (R20). -/
  r : Vector Word 16
  /-- `S[0]` to `S[7]`, behind indices 4 to 11 (R20). -/
  sh : Vector Word 8
  /-- `ALT`, true when the alternate bank is selected (R25). -/
  alt : Bool
  /-- `pc`, a byte address (R28). -/
  pc : Word
  /-- `N Z C V H` (R31). -/
  flags : Flags
  /-- `IV`, the interrupt vector (R37). -/
  iv : Word
  /-- `IE`, interrupt enable (R37). -/
  ie : Bool
  /-- `IP`, the pending-interrupt latch (R38). -/
  ip : Bool
  /-- `RUN` (R39). -/
  run : RunState
  /-- `M`, the 65 536 bytes of memory (20_memory.md R60). -/
  mem : Memory
  /-- The environment's side of the interface. -/
  env : Env
  deriving DecidableEq, Repr

/-- Why no step exists. Both are raised by `step` alone, in a terminal run state (10_state.md R39, U7 "stuck"), and are
safe: the machine takes no further step there. A machine fault is not one of these: it is a next state whose `run` is
`faulted` (log 1). -/
inductive Fault where
  /-- Raised by `step` when `RUN` is Halted. Safe: the spec gives no step there. -/
  | stepWhenHalted
  /-- Raised by `step` when `RUN` is Faulted. Safe: the spec gives no step there. -/
  | stepWhenFaulted (kind : FaultKind) (addr : Word)
  deriving DecidableEq, Repr

/-- Why the model gives an instruction no meaning. -/
inductive Refusal where
  /-- Raised by an arm of `exec` for an instruction without a meaning, by its table mnemonic. Safe: nothing is claimed of
  it. No arm raises it in this model. -/
  | notModelled (mnemonic : String)
  deriving DecidableEq, Repr

/-- What executing one instruction answers. -/
abbrev Result := Host.Outcome State Fault Refusal

/-- The environment of R6's defaults: every port unmapped, no answers listed, no `irq` events (logs 6, 7, 8). -/
def Env.initial : Env :=
  { readPorts := [], writePorts := [], answers := [], reads := 0, irqs := [], outputs := [] }

/-- The state right after `reset(base)` with memory contents `mem` (10_state.md R42, 70_reset_and_hazards.md R350). -/
def State.resetAt (base : Word) (mem : Memory) : State :=
  { r := Vector.replicate 16 0x0000#16
    sh := Vector.replicate 8 0x0000#16
    alt := false
    pc := base
    flags := { n := false, z := false, c := false, v := false, h := false }
    iv := 0x0000#16
    ie := false
    ip := false
    run := .running
    mem := mem
    env := Env.initial }

/-- The machine right after reset at the default `BASE`, memory at `MEM_INIT`, no image placed (logs 2, 3, 4). -/
def State.reset : State := State.resetAt Config.base []

end Sys2Proof.Machine
end

