-- ==== Sys2Proof/Machine/Ops.lean ====
section
/-! DEFINITION. The named operations over memory, ports and registers, raising a fault, the stack, taking an interrupt and
returning from one (spec/10_state.md R20 to R30, spec/20_memory.md R62 to R72, spec/43_loadstore.md R250, R251,
spec/60_exceptions.md R310 to R325). -/

namespace Sys2Proof.Machine

/-! ## Memory -/

/-- The byte listed for an address, `Config.memInit` where none is. -/
def Memory.lookup : Memory → Nat → Byte
  | [], _ => Config.memInit
  | (k, b) :: rest, a => if k = a then b else Memory.lookup rest a

/-- No entry for the address. -/
def Memory.erase (m : Memory) (a : Nat) : Memory := m.filter fun c => c.1 != a

/-- An entry at its place in a rising list. -/
def Memory.insert : Memory → Nat → Byte → Memory
  | [], a, v => [(a, v)]
  | (k, b) :: rest, a, v => if a < k then (a, v) :: (k, b) :: rest else (k, b) :: Memory.insert rest a v

/-- The canonical form: addresses strictly rising and inside the 64 KB space, no entry equal to what an unlisted address
reads as (log 5). -/
abbrev Memory.wf (m : Memory) : Prop :=
  m.Pairwise (fun p q => p.1 < q.1) ∧ ∀ c ∈ m, c.1 < 0x10000 ∧ c.2 ≠ Config.memInit

/-- `MemRead(addr, 1)`: `M[addr]`, which never faults (20_memory.md R63, R65). -/
def Memory.read (m : Memory) (a : Word) : Byte := Memory.lookup m a.toNat

/-- `MemWrite(addr, 1, v)`: one byte, which never faults (R64, R65). -/
def Memory.write (m : Memory) (a : Word) (v : Byte) : Memory :=
  if v = Config.memInit then Memory.erase m a.toNat else Memory.insert (Memory.erase m a.toNat) a.toNat v

/-- A 2-byte access at this address stays inside the space (R63 to R65). -/
def wordInRange (a : Word) : Bool := a.toNat + 2 - 1 ≤ 0xFFFF

/-- A little-endian word from its two bytes (R62). -/
def wordOfBytes (lo hi : Byte) : Word := hi ++ lo

/-- `MemRead(addr, 2)`, or nothing where it is out of range (R63). -/
def Memory.readWord (m : Memory) (a : Word) : Option Word :=
  if wordInRange a then some (wordOfBytes (m.read a) (m.read (a + 1#16))) else none

/-- `MemWrite(addr, 2, v)`, or nothing where it is out of range (R64); the two bytes land together (U15, log 14). -/
def Memory.writeWord (m : Memory) (a : Word) (v : Word) : Option Memory :=
  if wordInRange a then some ((m.write a (v.extractLsb' 0 8)).write (a + 1#16) (v.extractLsb' 8 8)) else none

/-- Consecutive bytes from an address upward, modulo 2^16. -/
def Memory.writeBytes (m : Memory) (a : Word) : List Byte → Memory
  | [] => m
  | b :: rest => Memory.writeBytes (m.write a b) (a + 1#16) rest

/-! ## Registers -/

/-- The shadow register behind an index: `S[j]` stands behind index `j + 4` (10_state.md R20). -/
def shadowIndex (i : Reg) : BitVec 3 := (i - 4#4).setWidth 3

/-- The index reaches the shadow array while the alternate bank is selected: indices 4 to 11 (R23, R24). -/
def banked (i : Reg) : Bool := 4#4 ≤ i && i ≤ 11#4

/-- The physical register an architectural index names (R23, R24). -/
def physOf (alt : Bool) (i : Reg) : PhysReg :=
  if alt && banked i then .shadow (shadowIndex i) else .primary i

/-- What a physical register holds. -/
def State.phys (s : State) : PhysReg → Word
  | .primary i => s.r[i.toNat]'i.isLt
  | .shadow j => s.sh[j.toNat]'j.isLt

/-- Write a physical register. -/
def State.setPhys (s : State) (p : PhysReg) (v : Word) : State :=
  match p with
  | .primary i => { s with r := s.r.set i.toNat v i.isLt }
  | .shadow j => { s with sh := s.sh.set j.toNat v j.isLt }

/-- `x[i]` (R23): index 0 reads as zero. -/
def State.x (s : State) (i : Reg) : Word :=
  if i = 0#4 then 0x0000#16 else s.phys (physOf s.alt i)

/-- `x[i] <- v` (R24): a write to index 0 is discarded. -/
def State.setX (s : State) (i : Reg) (v : Word) : State :=
  if i = 0#4 then s else s.setPhys (physOf s.alt i) v

/-- The link register `RA` (R22, R26, D14). -/
abbrev regRA : Reg := 1#4
/-- The stack pointer `SP` (R22, R26, D13). -/
abbrev regSP : Reg := 2#4
/-- The block count (R26, D15). -/
abbrev regCount : Reg := 4#4
/-- The block source pointer (R26, D15). -/
abbrev regSource : Reg := 5#4
/-- The block destination pointer (R26, D15). -/
abbrev regDest : Reg := 6#4
/-- The block key or fill byte, bits 7 to 0 (R26, D15). -/
abbrev regKey : Reg := 7#4

/-! ## Program counter and flags -/

/-- The address of the following instruction, `next` (00_scope.md R11). -/
def State.nextPc (s : State) (width : Word) : Word := s.pc + width

/-- The default advance (10_state.md R29). -/
def State.advance (s : State) (width : Word) : State := { s with pc := s.nextPc width }

/-- Set the five flags. -/
def State.withFlags (s : State) (f : Flags) : State := { s with flags := f }

/-! ## Faults -/

/-- Append to what the environment has received. -/
def State.emit (s : State) (o : Output) : State :=
  { s with env := { s.env with outputs := s.env.outputs ++ [o] } }

/-- The numeric code of a fault kind (60_exceptions.md R310, D20). -/
def FaultKind.code : FaultKind → Nat
  | .undefinedOpcode => 1
  | .truncatedFetch => 2
  | .memOutOfRange => 3
  | .portOutOfRange => 4
  | .divideByZero => 5

/-- The fault is a DecodeFault, the others are ExecutionFaults (R310, C5). -/
def FaultKind.isDecodeFault : FaultKind → Bool
  | .undefinedOpcode => true
  | .truncatedFetch => true
  | .memOutOfRange => false
  | .portOutOfRange => false
  | .divideByZero => false

/-- `raise Fault(kind, info)` on the state before the step: nothing of the step is kept, `RUN` becomes Faulted with the
address of the instruction, the environment is told once (R312, logs 1 and 9). -/
def raise (kind : FaultKind) (info : Word) (s : State) : Result :=
  .next { s.emit (.fault kind s.pc info) with run := .faulted kind s.pc }

/-- Commit the new state, or raise the memory fault where an access of the step was out of range (R312, R315). -/
def commitOrMemFault (addr : Word) (s : State) : Option State → Result
  | some t => .next t
  | none => raise .memOutOfRange addr s

/-! ## Ports -/

/-- The byte the next read-handler call answers: the listed answer, else the free value (20_memory.md R72, log 7). -/
def Env.answer (e : Env) : Byte :=
  match e.answers with
  | b :: _ => b
  | [] => Config.portByte e.reads

/-- One call of a read handler: its answer is used up and the call recorded. -/
def State.callReadHandler (s : State) (p : PortNo) : State :=
  { s with env := { s.env with
      answers := s.env.answers.tail
      reads := s.env.reads + 1
      outputs := s.env.outputs ++ [.portRead p s.env.answer] } }

/-- `PortRead(p)` (20_memory.md R69): nothing where the number is out of range; an unmapped port reads as zero. -/
def portRead (p : Word) (s : State) : Option (Byte × State) :=
  if p.toNat > 255 then none
  else if p.setWidth 8 ∈ s.env.readPorts then some (s.env.answer, s.callReadHandler (p.setWidth 8))
  else some (0x00#8, s)

/-- `PortWrite(p, v)` (R70): nothing where the number is out of range; an unmapped port discards the byte. -/
def portWrite (p : Word) (v : Byte) (s : State) : Option State :=
  if p.toNat > 255 then none
  else if p.setWidth 8 ∈ s.env.writePorts then some (s.emit (.portWrite (p.setWidth 8) v))
  else some s

/-! ## The stack -/

/-- `Push16(v)` (43_loadstore.md R250), or nothing where the store is out of range. -/
def push16 (v : Word) (s : State) : Option State :=
  match s.mem.writeWord (s.x regSP - 2#16) v with
  | some m => some ({ s with mem := m }.setX regSP (s.x regSP - 2#16))
  | none => none

/-- `Pop16()` (R251), or nothing where the load is out of range. -/
def pop16 (s : State) : Option (Word × State) :=
  match s.mem.readWord (s.x regSP) with
  | some v => some (v, s.setX regSP (s.x regSP + 2#16))
  | none => none

/-! ## Interrupts -/

/-- The one shared operation by which control passes to the vector (60_exceptions.md R320, R322): the return address is
pushed, further interrupts are disabled, `pc` is `IV`. Nothing else is saved or changed. -/
def enterVector (ret : Word) (s : State) : Option State :=
  match push16 ret s with
  | some t => some { t with ie := false, pc := t.iv }
  | none => none

/-- Return from interrupt (R325): the return address is popped, interrupts are enabled. -/
def returnFromInterrupt (s : State) : Option State :=
  match pop16 s with
  | some (ret, t) => some { t with ie := true, pc := ret }
  | none => none

/-- The acceptance test at an instruction boundary (R319 line 1). -/
def State.acceptsInterrupt (s : State) : Bool := s.ip && s.ie

/-- Interrupt entry, a step of its own (R320): the address of the instruction not yet executed is saved, `IP` is cleared. -/
def interruptEntry (s : State) : Result :=
  commitOrMemFault 0xFFFF#16 s ((enterVector s.pc s).map fun t => { t with ip := false })

/-- An `irq` event (10_state.md R38): `IP` is set, whatever `IE` and `RUN` are; a second event changes nothing. -/
def State.irq (s : State) : State := { s with ip := true }

/-- The environment's events at a step boundary (70_reset_and_hazards.md R354): the next entry of `env.irqs`, if any. -/
def State.deliver (s : State) : State :=
  match s.env.irqs with
  | [] => s
  | true :: rest => { s with env := { s.env with irqs := rest } }.irq
  | false :: rest => { s with env := { s.env with irqs := rest } }

/-- The `halted` level of 00_scope.md R7. -/
def State.isHalted (s : State) : Bool := s.run == .halted

end Sys2Proof.Machine
end

