-- ==== Sys2Proof/Machine/Operands.lean ====
section
/-! DEFINITION. Operand forms: immediates, effective addresses and control-transfer targets (spec/30_encoding.md R94 to
R97, spec/43_loadstore.md, spec/42_control.md R200, R201, R220, R221). -/

namespace Sys2Proof.Machine

/-- `sext_8` (00_scope.md R10). -/
def sext8 (v : BitVec 8) : Word := v.signExtend 16

/-- `zext_8` (00_scope.md R10). -/
def zext8 (v : BitVec 8) : Word := v.setWidth 16

/-- `v[7:0]`. -/
def lowByte (v : Word) : Byte := v.extractLsb' 0 8

/-- Register indirect, `EA = x[rs]` (the compact loads and stores). -/
def State.eaIndirect (s : State) (rs : Reg) : Word := s.x rs

/-- Register plus displacement, `EA = (x[rs] + w1) mod 2^16` (the extended loads and stores, 20_memory.md R68). -/
def State.eaDisplaced (s : State) (rs : Reg) (disp : Word) : Word := s.x rs + disp

/-- A relative target: `offset` words from the next instruction, modulo 2^16 (R95 to R97). -/
def relativeTarget (pc : Word) (width : Int) (offset : Int) : Word :=
  BitVec.ofInt 16 (pc.toNat + width + 2 * offset)

end Sys2Proof.Machine
end

