-- ==== Sys2Proof/Syntax.lean ====
section
/-! DEFINITION. The instruction syntax: one constructor per row of spec/opcode_table.json, in the table's order
(spec/30_encoding.md R98 to R108). The sixteen branch conditions are rows of their own in each form; a name ending in
`Ext` or `Far` is the extended (4-byte) form of a mnemonic that also has a compact form. -/

namespace Sys2Proof

/-- The sixteen branch conditions, in the order and with the numbers of 30_encoding.md R101 (D4). -/
inductive Cond where
  | eq | ne | lt | ge | ltu | geu | mi | pl
  | vs | vc | cs | cc | gt | le | hi | ls
  deriving DecidableEq, Repr

/-- The instructions. Register fields are indices 0 to 15; `imm`, `off` and `addr` are the encoded fields as they stand
in the instruction's words (sign extension is an operand form, Machine/Operands.lean). The `rd` field of a store, `CMP`,
`TST`, `CMPI` and `OUT` names a register that is read, as R100, R105, R106 and R108 say. -/
inductive Instr where
  /-- `ADD`, compact, rule R130. -/
  | add (rd rs1 rs2 : Reg)
  /-- `SUB`, compact, rule R131. -/
  | sub (rd rs1 rs2 : Reg)
  /-- `AND`, compact, rule R132. -/
  | and (rd rs1 rs2 : Reg)
  /-- `OR`, compact, rule R133. -/
  | or (rd rs1 rs2 : Reg)
  /-- `XOR`, compact, rule R134. -/
  | xor (rd rs1 rs2 : Reg)
  /-- `ADDI`, compact, rule R135. -/
  | addi (rd : Reg) (imm : BitVec 8)
  /-- `LW`, compact, rule R240. -/
  | lw (rd rs : Reg)
  /-- `LB`, compact, rule R241. -/
  | lb (rd rs : Reg)
  /-- `LBU`, compact, rule R242. -/
  | lbu (rd rs : Reg)
  /-- `SW`, compact, rule R243. -/
  | sw (rd rs : Reg)
  /-- `SB`, compact, rule R244. -/
  | sb (rd rs : Reg)
  /-- `BEQ`, compact, rule R200, R203. -/
  | beq (off : BitVec 8)
  /-- `BNE`, compact, rule R200, R204. -/
  | bne (off : BitVec 8)
  /-- `BLT`, compact, rule R200, R205. -/
  | blt (off : BitVec 8)
  /-- `BGE`, compact, rule R200, R206. -/
  | bge (off : BitVec 8)
  /-- `BLTU`, compact, rule R200, R207. -/
  | bltu (off : BitVec 8)
  /-- `BGEU`, compact, rule R200, R208. -/
  | bgeu (off : BitVec 8)
  /-- `BMI`, compact, rule R200, R209. -/
  | bmi (off : BitVec 8)
  /-- `BPL`, compact, rule R200, R210. -/
  | bpl (off : BitVec 8)
  /-- `BVS`, compact, rule R200, R211. -/
  | bvs (off : BitVec 8)
  /-- `BVC`, compact, rule R200, R212. -/
  | bvc (off : BitVec 8)
  /-- `BCS`, compact, rule R200, R213. -/
  | bcs (off : BitVec 8)
  /-- `BCC`, compact, rule R200, R214. -/
  | bcc (off : BitVec 8)
  /-- `BGT`, compact, rule R200, R215. -/
  | bgt (off : BitVec 8)
  /-- `BLE`, compact, rule R200, R216. -/
  | ble (off : BitVec 8)
  /-- `BHI`, compact, rule R200, R217. -/
  | bhi (off : BitVec 8)
  /-- `BLS`, compact, rule R200, R218. -/
  | bls (off : BitVec 8)
  /-- `JR`, compact, rule R222. -/
  | jr (rs : Reg)
  /-- `JALR`, compact, rule R223. -/
  | jalr (rs : Reg)
  /-- `J`, compact, rule R220. -/
  | j (off : BitVec 12)
  /-- `SLL`, compact, rule R170. -/
  | sll (rd rs : Reg)
  /-- `SRL`, compact, rule R171. -/
  | srl (rd rs : Reg)
  /-- `SRA`, compact, rule R172. -/
  | sra (rd rs : Reg)
  /-- `ROL`, compact, rule R173. -/
  | rol (rd rs : Reg)
  /-- `ROR`, compact, rule R174. -/
  | ror (rd rs : Reg)
  /-- `RCL`, compact, rule R175. -/
  | rcl (rd rs : Reg)
  /-- `RCR`, compact, rule R176. -/
  | rcr (rd rs : Reg)
  /-- `SWAP`, compact, rule R177. -/
  | swap (rd rs : Reg)
  /-- `SEXT`, compact, rule R178. -/
  | sext (rd rs : Reg)
  /-- `MUL`, compact, rule R180. -/
  | mul (rd rs : Reg)
  /-- `MULH`, compact, rule R181. -/
  | mulh (rd rs : Reg)
  /-- `MULHU`, compact, rule R182. -/
  | mulhu (rd rs : Reg)
  /-- `DIV`, compact, rule R183. -/
  | div (rd rs : Reg)
  /-- `DIVU`, compact, rule R184. -/
  | divu (rd rs : Reg)
  /-- `REM`, compact, rule R185. -/
  | rem (rd rs : Reg)
  /-- `REMU`, compact, rule R186. -/
  | remu (rd rs : Reg)
  /-- `MOV`, compact, rule R150. -/
  | mov (rd rs : Reg)
  /-- `NOT`, compact, rule R151. -/
  | not (rd rs : Reg)
  /-- `NEG`, compact, rule R152. -/
  | neg (rd rs : Reg)
  /-- `ADC`, compact, rule R153. -/
  | adc (rd rs : Reg)
  /-- `SBC`, compact, rule R154. -/
  | sbc (rd rs : Reg)
  /-- `CMP`, compact, rule R155. -/
  | cmp (rd rs : Reg)
  /-- `TST`, compact, rule R156. -/
  | tst (rd rs : Reg)
  /-- `PUSH`, compact, rule R252. -/
  | push (rs : Reg)
  /-- `POP`, compact, rule R253. -/
  | pop (rd : Reg)
  /-- `EXX`, compact, rule R300. -/
  | exx
  /-- `LDI`, compact, rule R263. -/
  | ldi
  /-- `LDD`, compact, rule R264. -/
  | ldd
  /-- `LDIR`, compact, rule R265. -/
  | ldir
  /-- `LDDR`, compact, rule R266. -/
  | lddr
  /-- `FILL`, compact, rule R268. -/
  | fill
  /-- `CPIR`, compact, rule R267. -/
  | cpir
  /-- `IN`, compact, rule R280. -/
  | inPort (rd rs : Reg)
  /-- `OUT`, compact, rule R281. -/
  | outPort (rd rs : Reg)
  /-- `NOP`, compact, rule R290. -/
  | nop
  /-- `HALT`, compact, rule R291. -/
  | halt
  /-- `EI`, compact, rule R292. -/
  | ei
  /-- `DI`, compact, rule R293. -/
  | di
  /-- `SWI`, compact, rule R322. -/
  | swi
  /-- `RETI`, compact, rule R325. -/
  | reti
  /-- `GETF`, compact, rule R296. -/
  | getf (rd : Reg)
  /-- `SETF`, compact, rule R297. -/
  | setf (rs : Reg)
  /-- `GETIV`, compact, rule R298. -/
  | getiv (rd : Reg)
  /-- `SETIV`, compact, rule R299. -/
  | setiv (rs : Reg)
  /-- `ADDI`, extended, rule R136. -/
  | addiExt (rd rs : Reg) (imm : Word)
  /-- `ANDI`, extended, rule R137. -/
  | andi (rd rs : Reg) (imm : Word)
  /-- `ORI`, extended, rule R138. -/
  | ori (rd rs : Reg) (imm : Word)
  /-- `XORI`, extended, rule R139. -/
  | xori (rd rs : Reg) (imm : Word)
  /-- `CMPI`, extended, rule R140. -/
  | cmpi (rd : Reg) (imm : Word)
  /-- `LI`, extended, rule R141. -/
  | li (rd : Reg) (imm : Word)
  /-- `LW`, extended, rule R245. -/
  | lwExt (rd rs : Reg) (imm : Word)
  /-- `LB`, extended, rule R246. -/
  | lbExt (rd rs : Reg) (imm : Word)
  /-- `LBU`, extended, rule R247. -/
  | lbuExt (rd rs : Reg) (imm : Word)
  /-- `SW`, extended, rule R248. -/
  | swExt (rd rs : Reg) (imm : Word)
  /-- `SB`, extended, rule R249. -/
  | sbExt (rd rs : Reg) (imm : Word)
  /-- `BEQ`, extended, rule R201, R203. -/
  | beqFar (off : Word)
  /-- `BNE`, extended, rule R201, R204. -/
  | bneFar (off : Word)
  /-- `BLT`, extended, rule R201, R205. -/
  | bltFar (off : Word)
  /-- `BGE`, extended, rule R201, R206. -/
  | bgeFar (off : Word)
  /-- `BLTU`, extended, rule R201, R207. -/
  | bltuFar (off : Word)
  /-- `BGEU`, extended, rule R201, R208. -/
  | bgeuFar (off : Word)
  /-- `BMI`, extended, rule R201, R209. -/
  | bmiFar (off : Word)
  /-- `BPL`, extended, rule R201, R210. -/
  | bplFar (off : Word)
  /-- `BVS`, extended, rule R201, R211. -/
  | bvsFar (off : Word)
  /-- `BVC`, extended, rule R201, R212. -/
  | bvcFar (off : Word)
  /-- `BCS`, extended, rule R201, R213. -/
  | bcsFar (off : Word)
  /-- `BCC`, extended, rule R201, R214. -/
  | bccFar (off : Word)
  /-- `BGT`, extended, rule R201, R215. -/
  | bgtFar (off : Word)
  /-- `BLE`, extended, rule R201, R216. -/
  | bleFar (off : Word)
  /-- `BHI`, extended, rule R201, R217. -/
  | bhiFar (off : Word)
  /-- `BLS`, extended, rule R201, R218. -/
  | blsFar (off : Word)
  /-- `J`, extended, rule R221. -/
  | jFar (off : Word)
  /-- `JMP`, extended, rule R224. -/
  | jmp (addr : Word)
  /-- `CALL`, extended, rule R225. -/
  | call (addr : Word)
  deriving DecidableEq, Repr

end Sys2Proof
end

