-- ==== Sys2Proof/Machine/Flags.lean ====
section
/-! DEFINITION. Flag computations, the branch condition table and the flag image (spec/10_state.md R31 to R36, R40,
spec/42_control.md R202, spec/44_block.md R260). -/

namespace Sys2Proof.Machine

/-- `AddFlags(a, b, cin)` (R32): the 16-bit sum and the five flags. -/
def addFlags (a b : Word) (cin : Bool) : Word × Flags :=
  let sum := a.toNat + b.toNat + cin.toNat
  let r : Word := BitVec.ofNat 16 sum
  (r, { n := r.msb
        z := r == 0#16
        c := sum > 0xFFFF
        v := (~~~(a ^^^ b) &&& (a ^^^ r)).msb
        h := (a.extractLsb' 0 4).toNat + (b.extractLsb' 0 4).toNat + cin.toNat > 0xF })

/-- `SubFlags(a, b, cin)` (R33): `a + ~b + cin`, with `C` and `H` 1 for no borrow (C4, D7, D8). -/
def subFlags (a b : Word) (cin : Bool) : Word × Flags :=
  let nb := ~~~b
  let sum := a.toNat + nb.toNat + cin.toNat
  let r : Word := BitVec.ofNat 16 sum
  (r, { n := r.msb
        z := r == 0#16
        c := sum > 0xFFFF
        v := ((a ^^^ b) &&& (a ^^^ r)).msb
        h := (a.extractLsb' 0 4).toNat + (nb.extractLsb' 0 4).toNat + cin.toNat > 0xF })

/-- `LogicFlags(r)` (R34): N and Z from the result, C and V cleared, H kept. -/
def logicFlags (r : Word) (old : Flags) : Flags :=
  { n := r.msb, z := r == 0#16, c := false, v := false, h := old.h }

/-- `ShiftFlags(r, cout)` (R35, D37): N and Z from the result, C the bit that left, V cleared, H kept. -/
def shiftFlags (r : Word) (cout : Bool) (old : Flags) : Flags :=
  { n := r.msb, z := r == 0#16, c := cout, v := false, h := old.h }

/-- The condition table `Cond(cond, N, Z, C, V)` (42_control.md R202). -/
def condHolds (c : Cond) (f : Flags) : Bool :=
  match c with
  | .eq => f.z
  | .ne => !f.z
  | .lt => f.n ^^ f.v
  | .ge => !(f.n ^^ f.v)
  | .ltu => !f.c
  | .geu => f.c
  | .mi => f.n
  | .pl => !f.n
  | .vs => f.v
  | .vc => !f.v
  | .cs => f.c
  | .cc => !f.c
  | .gt => !f.z && !(f.n ^^ f.v)
  | .le => f.z || (f.n ^^ f.v)
  | .hi => f.c && !f.z
  | .ls => !f.c || f.z

/-- `FLAGS16` (R40, D24): N Z C V H in bits 7 to 3, every other bit zero. -/
def flagImage (f : Flags) : Word :=
  0x00#8 ++ BitVec.ofBool f.n ++ BitVec.ofBool f.z ++ BitVec.ofBool f.c ++ BitVec.ofBool f.v ++ BitVec.ofBool f.h ++ 0b000#3

/-- The flags a register value loads: bits 7 to 3, the rest ignored (R40). -/
def flagsOfImage (v : Word) : Flags :=
  { n := v.getLsbD 7, z := v.getLsbD 6, c := v.getLsbD 5, v := v.getLsbD 4, h := v.getLsbD 3 }

/-- Only `Z` written (block operations, 44_block.md R260). -/
def Flags.withZ (f : Flags) (z : Bool) : Flags := { f with z := z }

/-- Only `Z` and `C` written (`CPIR`, R267). -/
def Flags.withZC (f : Flags) (z c : Bool) : Flags := { f with z := z, c := c }

end Sys2Proof.Machine
end

