-- ==== Sys2Proof/Machine/Alu.lean ====
section
/-! DEFINITION. Arithmetic, logic, compare and move (spec/40_alu.md). -/

namespace Sys2Proof.Machine

/-- Write a result and the flags, then advance: the common end of the flag-writing instructions (R12, R29). -/
def writeResult (rd : Reg) (r : Word) (f : Flags) (width : Word) (s : State) : Result :=
  .next (((s.setX rd r).withFlags f).advance width)

/-- Write a result, no flag, then advance. -/
def writeValue (rd : Reg) (r : Word) (width : Word) (s : State) : Result :=
  .next ((s.setX rd r).advance width)

/-- Write the flags, no register, then advance. -/
def writeFlags (f : Flags) (width : Word) (s : State) : Result :=
  .next ((s.withFlags f).advance width)

/-- A sum with its flags into a register. -/
def writeSum (rd : Reg) (a b : Word) (cin : Bool) (width : Word) (s : State) : Result :=
  writeResult rd (addFlags a b cin).1 (addFlags a b cin).2 width s

/-- A difference with its flags into a register. -/
def writeDiff (rd : Reg) (a b : Word) (cin : Bool) (width : Word) (s : State) : Result :=
  writeResult rd (subFlags a b cin).1 (subFlags a b cin).2 width s

/-- A bitwise result with its flags into a register. -/
def writeLogic (rd : Reg) (r : Word) (width : Word) (s : State) : Result :=
  writeResult rd r (logicFlags r s.flags) width s

/-- `ADD rd, rs1, rs2` (R130). -/
def execAdd (rd rs1 rs2 : Reg) (s : State) : Result := writeSum rd (s.x rs1) (s.x rs2) false 2#16 s

/-- `SUB rd, rs1, rs2` (R131). -/
def execSub (rd rs1 rs2 : Reg) (s : State) : Result := writeDiff rd (s.x rs1) (s.x rs2) true 2#16 s

/-- `AND rd, rs1, rs2` (R132). -/
def execAnd (rd rs1 rs2 : Reg) (s : State) : Result := writeLogic rd (s.x rs1 &&& s.x rs2) 2#16 s

/-- `OR rd, rs1, rs2` (R133). -/
def execOr (rd rs1 rs2 : Reg) (s : State) : Result := writeLogic rd (s.x rs1 ||| s.x rs2) 2#16 s

/-- `XOR rd, rs1, rs2` (R134). -/
def execXor (rd rs1 rs2 : Reg) (s : State) : Result := writeLogic rd (s.x rs1 ^^^ s.x rs2) 2#16 s

/-- `ADDI rd, imm8`, compact (R135): the immediate is sign-extended (R94). -/
def execAddi (rd : Reg) (imm : BitVec 8) (s : State) : Result := writeSum rd (s.x rd) (sext8 imm) false 2#16 s

/-- `ADDI rd, rs, imm16`, extended (R136). -/
def execAddiExt (rd rs : Reg) (imm : Word) (s : State) : Result := writeSum rd (s.x rs) imm false 4#16 s

/-- `ANDI rd, rs, imm16` (R137). -/
def execAndi (rd rs : Reg) (imm : Word) (s : State) : Result := writeLogic rd (s.x rs &&& imm) 4#16 s

/-- `ORI rd, rs, imm16` (R138). -/
def execOri (rd rs : Reg) (imm : Word) (s : State) : Result := writeLogic rd (s.x rs ||| imm) 4#16 s

/-- `XORI rd, rs, imm16` (R139). -/
def execXori (rd rs : Reg) (imm : Word) (s : State) : Result := writeLogic rd (s.x rs ^^^ imm) 4#16 s

/-- `CMPI rd, imm16` (R140): the difference is discarded. -/
def execCmpi (rd : Reg) (imm : Word) (s : State) : Result := writeFlags (subFlags (s.x rd) imm true).2 4#16 s

/-- `LI rd, imm16` (R141). -/
def execLi (rd : Reg) (imm : Word) (s : State) : Result := writeValue rd imm 4#16 s

/-- `MOV rd, rs` (R150). -/
def execMov (rd rs : Reg) (s : State) : Result := writeValue rd (s.x rs) 2#16 s

/-- `NOT rd, rs` (R151). -/
def execNot (rd rs : Reg) (s : State) : Result := writeLogic rd (~~~(s.x rs)) 2#16 s

/-- `NEG rd, rs` (R152): `0 - x[rs]`. -/
def execNeg (rd rs : Reg) (s : State) : Result := writeDiff rd 0x0000#16 (s.x rs) true 2#16 s

/-- `ADC rd, rs` (R153): the carry in is the `C` flag. -/
def execAdc (rd rs : Reg) (s : State) : Result := writeSum rd (s.x rd) (s.x rs) s.flags.c 2#16 s

/-- `SBC rd, rs` (R154): a clear `C` subtracts one more. -/
def execSbc (rd rs : Reg) (s : State) : Result := writeDiff rd (s.x rd) (s.x rs) s.flags.c 2#16 s

/-- `CMP rd, rs` (R155): the difference is discarded. -/
def execCmp (rd rs : Reg) (s : State) : Result := writeFlags (subFlags (s.x rd) (s.x rs) true).2 2#16 s

/-- `TST rd, rs` (R156): the bitwise AND is discarded. -/
def execTst (rd rs : Reg) (s : State) : Result := writeFlags (logicFlags (s.x rd &&& s.x rs) s.flags) 2#16 s

end Sys2Proof.Machine
end

