-- ==== Sys2Proof/Machine/Block.lean ====
section
/-! DEFINITION. Block operations, each one step whatever its count (spec/44_block.md). The registers are read and written
through the bank selector (R260). -/

namespace Sys2Proof.Machine

/-- One element of a copy, both pointers moving by `dir` (R263, R264): the byte, the pointers, the count. -/
def copyElement (dir : Word) (s : State) : State :=
  let t := { s with mem := s.mem.write (s.x regDest) (s.mem.read (s.x regSource)) }
  ((t.setX regSource (s.x regSource + dir)).setX regDest (s.x regDest + dir)).setX regCount (s.x regCount - 1#16)

/-- One element of a fill (R268). -/
def fillElement (s : State) : State :=
  let t := { s with mem := s.mem.write (s.x regDest) (lowByte (s.x regKey)) }
  (t.setX regDest (s.x regDest + 1#16)).setX regCount (s.x regCount - 1#16)

/-- Elements one at a time, in order, each seeing the one before (R262). -/
def repeatElement (element : State → State) : Nat → State → State
  | 0, s => s
  | n + 1, s => repeatElement element n (element s)

/-- One element of a search moves the pointer and the count (R267). -/
def searchAdvance (s : State) : State :=
  (s.setX regSource (s.x regSource + 1#16)).setX regCount (s.x regCount - 1#16)

/-- The search loop: stops at the first matching byte or when the count is used up (R267). -/
def searchLoop : Nat → State → State × Bool
  | 0, s => (s, false)
  | n + 1, s =>
    if s.mem.read (s.x regSource) = lowByte (s.x regKey) then (searchAdvance s, true)
    else searchLoop n (searchAdvance s)

/-- The end of a copy or fill: `Z <- (x[4] == 0)`, no other flag, then the advance (R260). -/
def finishBlock (s : State) : Result :=
  .next ((s.withFlags (s.flags.withZ (s.x regCount == 0#16))).advance 2#16)

/-- A single-step copy: nothing moves when the count is zero (R261, R263). -/
def copyOnce (dir : Word) (s : State) : State := if s.x regCount = 0#16 then s else copyElement dir s

/-- `LDI` (R263). -/
def execLdi (s : State) : Result := finishBlock (copyOnce 1#16 s)

/-- `LDD` (R264). -/
def execLdd (s : State) : Result := finishBlock (copyOnce 0xFFFF#16 s)

/-- `LDIR` (R265). -/
def execLdir (s : State) : Result := finishBlock (repeatElement (copyElement 1#16) (s.x regCount).toNat s)

/-- `LDDR` (R266). -/
def execLddr (s : State) : Result := finishBlock (repeatElement (copyElement 0xFFFF#16) (s.x regCount).toNat s)

/-- `FILL` (R268). -/
def execFill (s : State) : Result := finishBlock (repeatElement fillElement (s.x regCount).toNat s)

/-- `CPIR` (R267): `Z` says the count is used up, `C` that a match was found. -/
def execCpir (s : State) : Result :=
  let p := searchLoop (s.x regCount).toNat s
  .next ((p.1.withFlags (p.1.flags.withZC (p.1.x regCount == 0#16) p.2)).advance 2#16)

end Sys2Proof.Machine
end

