-- ==== Sys2Proof/Machine/Control.lean ====
section
/-! DEFINITION. Branches, jumps and calls (spec/42_control.md). No flag, memory byte or port is touched. -/

namespace Sys2Proof.Machine

/-- Redirect `pc` (10_state.md R30). -/
def State.jumpTo (s : State) (target : Word) : State := { s with pc := target }

/-- A relative branch of either form: taken when the condition holds of the flags, otherwise the default advance
(R200, R201). -/
def branchOn (c : Cond) (width : Word) (target : Word) (s : State) : Result :=
  if condHolds c s.flags then .next (s.jumpTo target) else .next (s.advance width)

/-- The compact form: a signed 8-bit word offset from `pc + 2` (R200, R95). -/
def branchCompact (c : Cond) (off : BitVec 8) (s : State) : Result :=
  branchOn c 2#16 (relativeTarget s.pc 2 off.toInt) s

/-- The far form: a signed 16-bit word offset from `pc + 4` (R201, R97). -/
def branchFar (c : Cond) (off : Word) (s : State) : Result :=
  branchOn c 4#16 (relativeTarget s.pc 4 off.toInt) s

/-- `BEQ`, compact (R200, R203). -/
def execBeq (off : BitVec 8) (s : State) : Result := branchCompact .eq off s

/-- `BNE`, compact (R200, R204). -/
def execBne (off : BitVec 8) (s : State) : Result := branchCompact .ne off s

/-- `BLT`, compact (R200, R205). -/
def execBlt (off : BitVec 8) (s : State) : Result := branchCompact .lt off s

/-- `BGE`, compact (R200, R206). -/
def execBge (off : BitVec 8) (s : State) : Result := branchCompact .ge off s

/-- `BLTU`, compact (R200, R207). -/
def execBltu (off : BitVec 8) (s : State) : Result := branchCompact .ltu off s

/-- `BGEU`, compact (R200, R208). -/
def execBgeu (off : BitVec 8) (s : State) : Result := branchCompact .geu off s

/-- `BMI`, compact (R200, R209). -/
def execBmi (off : BitVec 8) (s : State) : Result := branchCompact .mi off s

/-- `BPL`, compact (R200, R210). -/
def execBpl (off : BitVec 8) (s : State) : Result := branchCompact .pl off s

/-- `BVS`, compact (R200, R211). -/
def execBvs (off : BitVec 8) (s : State) : Result := branchCompact .vs off s

/-- `BVC`, compact (R200, R212). -/
def execBvc (off : BitVec 8) (s : State) : Result := branchCompact .vc off s

/-- `BCS`, compact (R200, R213). -/
def execBcs (off : BitVec 8) (s : State) : Result := branchCompact .cs off s

/-- `BCC`, compact (R200, R214). -/
def execBcc (off : BitVec 8) (s : State) : Result := branchCompact .cc off s

/-- `BGT`, compact (R200, R215). -/
def execBgt (off : BitVec 8) (s : State) : Result := branchCompact .gt off s

/-- `BLE`, compact (R200, R216). -/
def execBle (off : BitVec 8) (s : State) : Result := branchCompact .le off s

/-- `BHI`, compact (R200, R217). -/
def execBhi (off : BitVec 8) (s : State) : Result := branchCompact .hi off s

/-- `BLS`, compact (R200, R218). -/
def execBls (off : BitVec 8) (s : State) : Result := branchCompact .ls off s

/-- `BEQ`, far (R201, R203). -/
def execBeqFar (off : Word) (s : State) : Result := branchFar .eq off s

/-- `BNE`, far (R201, R204). -/
def execBneFar (off : Word) (s : State) : Result := branchFar .ne off s

/-- `BLT`, far (R201, R205). -/
def execBltFar (off : Word) (s : State) : Result := branchFar .lt off s

/-- `BGE`, far (R201, R206). -/
def execBgeFar (off : Word) (s : State) : Result := branchFar .ge off s

/-- `BLTU`, far (R201, R207). -/
def execBltuFar (off : Word) (s : State) : Result := branchFar .ltu off s

/-- `BGEU`, far (R201, R208). -/
def execBgeuFar (off : Word) (s : State) : Result := branchFar .geu off s

/-- `BMI`, far (R201, R209). -/
def execBmiFar (off : Word) (s : State) : Result := branchFar .mi off s

/-- `BPL`, far (R201, R210). -/
def execBplFar (off : Word) (s : State) : Result := branchFar .pl off s

/-- `BVS`, far (R201, R211). -/
def execBvsFar (off : Word) (s : State) : Result := branchFar .vs off s

/-- `BVC`, far (R201, R212). -/
def execBvcFar (off : Word) (s : State) : Result := branchFar .vc off s

/-- `BCS`, far (R201, R213). -/
def execBcsFar (off : Word) (s : State) : Result := branchFar .cs off s

/-- `BCC`, far (R201, R214). -/
def execBccFar (off : Word) (s : State) : Result := branchFar .cc off s

/-- `BGT`, far (R201, R215). -/
def execBgtFar (off : Word) (s : State) : Result := branchFar .gt off s

/-- `BLE`, far (R201, R216). -/
def execBleFar (off : Word) (s : State) : Result := branchFar .le off s

/-- `BHI`, far (R201, R217). -/
def execBhiFar (off : Word) (s : State) : Result := branchFar .hi off s

/-- `BLS`, far (R201, R218). -/
def execBlsFar (off : Word) (s : State) : Result := branchFar .ls off s

/-- `J`, compact (R220): a signed 12-bit word offset from `pc + 2`. -/
def execJ (off : BitVec 12) (s : State) : Result := .next (s.jumpTo (relativeTarget s.pc 2 off.toInt))

/-- `J`, far (R221): a signed 16-bit word offset from `pc + 4`. -/
def execJFar (off : Word) (s : State) : Result := .next (s.jumpTo (relativeTarget s.pc 4 off.toInt))

/-- `JR rs` (R222). -/
def execJr (rs : Reg) (s : State) : Result := .next (s.jumpTo (s.x rs))

/-- `JALR rs` (R223): the target is read before the link is written (D40). -/
def execJalr (rs : Reg) (s : State) : Result := .next ((s.setX regRA (s.nextPc 2#16)).jumpTo (s.x rs))

/-- `JMP addr16` (R224). -/
def execJmp (addr : Word) (s : State) : Result := .next (s.jumpTo addr)

/-- `CALL addr16` (R225): links `pc + 4`. -/
def execCall (addr : Word) (s : State) : Result := .next ((s.setX regRA (s.nextPc 4#16)).jumpTo addr)

end Sys2Proof.Machine
end

