-- ==== Sys2Proof/Machine/Io.lean ====
section
/-! DEFINITION. Port input and output (spec/45_io.md). No flag is written. -/

namespace Sys2Proof.Machine

/-- Commit, or raise the port fault where the port number is above 255 (60_exceptions.md R316). -/
def commitOrPortFault (port : Word) (s : State) : Option State → Result
  | some t => .next t
  | none => raise .portOutOfRange port s

/-- `IN rd, (rs)` (R280): all 16 bits of `x[rs]` are the port number; the byte is zero-extended. With `rd` = 0 the
handler is still called. -/
def execInPort (rd rs : Reg) (s : State) : Result :=
  commitOrPortFault (s.x rs) s ((portRead (s.x rs) s).map fun p => (p.2.setX rd (zext8 p.1)).advance 2#16)

/-- `OUT (rd), rs` (R281): `x[rd]` is the port number, the low byte of `x[rs]` the datum. -/
def execOutPort (rd rs : Reg) (s : State) : Result :=
  commitOrPortFault (s.x rd) s ((portWrite (s.x rd) (lowByte (s.x rs)) s).map fun t => t.advance 2#16)

end Sys2Proof.Machine
end

