-- ==== Sys2Proof/Machine/LoadStore.lean ====
section
/-! DEFINITION. Loads, stores and the stack instructions (spec/43_loadstore.md). No flag is written; nothing needs to be
aligned (20_memory.md R67). -/

namespace Sys2Proof.Machine

/-- Load a word into a register, or the range fault (R240, R245). With `rd` = 0 the read still happens. -/
def loadWord (rd : Reg) (ea : Word) (width : Word) (s : State) : Result :=
  commitOrMemFault ea s ((s.mem.readWord ea).map fun v => (s.setX rd v).advance width)

/-- Load a byte into a register through an extension (R241, R242, R246, R247). -/
def loadByte (extend : Byte → Word) (rd : Reg) (ea : Word) (width : Word) (s : State) : Result :=
  .next ((s.setX rd (extend (s.mem.read ea))).advance width)

/-- Store a word, or the range fault with neither byte written (R243, R248). -/
def storeWord (ea : Word) (v : Word) (width : Word) (s : State) : Result :=
  commitOrMemFault ea s ((s.mem.writeWord ea v).map fun m => { s with mem := m }.advance width)

/-- Store a register's low byte (R244, R249). -/
def storeByte (ea : Word) (v : Word) (width : Word) (s : State) : Result :=
  .next ({ s with mem := s.mem.write ea (lowByte v) }.advance width)

/-- `LW rd, (rs)` (R240). -/
def execLw (rd rs : Reg) (s : State) : Result := loadWord rd (s.eaIndirect rs) 2#16 s

/-- `LB rd, (rs)` (R241). -/
def execLb (rd rs : Reg) (s : State) : Result := loadByte sext8 rd (s.eaIndirect rs) 2#16 s

/-- `LBU rd, (rs)` (R242). -/
def execLbu (rd rs : Reg) (s : State) : Result := loadByte zext8 rd (s.eaIndirect rs) 2#16 s

/-- `SW rd, (rs)` (R243): the `rd` field names the data register. -/
def execSw (rd rs : Reg) (s : State) : Result := storeWord (s.eaIndirect rs) (s.x rd) 2#16 s

/-- `SB rd, (rs)` (R244). -/
def execSb (rd rs : Reg) (s : State) : Result := storeByte (s.eaIndirect rs) (s.x rd) 2#16 s

/-- `LW rd, imm16(rs)` (R245). -/
def execLwExt (rd rs : Reg) (imm : Word) (s : State) : Result := loadWord rd (s.eaDisplaced rs imm) 4#16 s

/-- `LB rd, imm16(rs)` (R246). -/
def execLbExt (rd rs : Reg) (imm : Word) (s : State) : Result := loadByte sext8 rd (s.eaDisplaced rs imm) 4#16 s

/-- `LBU rd, imm16(rs)` (R247). -/
def execLbuExt (rd rs : Reg) (imm : Word) (s : State) : Result := loadByte zext8 rd (s.eaDisplaced rs imm) 4#16 s

/-- `SW rd, imm16(rs)` (R248). -/
def execSwExt (rd rs : Reg) (imm : Word) (s : State) : Result := storeWord (s.eaDisplaced rs imm) (s.x rd) 4#16 s

/-- `SB rd, imm16(rs)` (R249). -/
def execSbExt (rd rs : Reg) (imm : Word) (s : State) : Result := storeByte (s.eaDisplaced rs imm) (s.x rd) 4#16 s

/-- `PUSH rs` (R252): the value is read before the stack pointer moves. -/
def execPush (rs : Reg) (s : State) : Result :=
  commitOrMemFault 0xFFFF#16 s ((push16 (s.x rs) s).map fun t => t.advance 2#16)

/-- `POP rd` (R253): the register write comes after the stack-pointer update. -/
def execPop (rd : Reg) (s : State) : Result :=
  commitOrMemFault 0xFFFF#16 s ((pop16 s).map fun p => (p.2.setX rd p.1).advance 2#16)

end Sys2Proof.Machine
end

