-- ==== Sys2Proof/Machine/MulDiv.lean ====
section
/-! DEFINITION. Multiply, divide and remainder (spec/41_shift_muldiv.md sections 3 and 4, D23). No flag is written. -/

namespace Sys2Proof.Machine

/-- A quotient or remainder into a register, or the fault where the divisor is zero (R183 to R186, R317). -/
def writeUnlessZero (divisor : Word) (rd : Reg) (r : Word) (s : State) : Result :=
  if divisor = 0x0000#16 then raise .divideByZero s.pc s else writeValue rd r 2#16 s

/-- The signed quotient rounded toward zero, narrowed to 16 bits (R183); −32768 / −1 gives 0x8000 (log 18). -/
def signedQuotient (a b : Word) : Word := BitVec.ofInt 16 (a.toInt.tdiv b.toInt)

/-- The signed remainder `a - trunc(a / b) * b` (R185). -/
def signedRemainder (a b : Word) : Word := BitVec.ofInt 16 (a.toInt - a.toInt.tdiv b.toInt * b.toInt)

/-- `MUL rd, rs` (R180): the low half of the product. -/
def execMul (rd rs : Reg) (s : State) : Result :=
  writeValue rd (BitVec.ofNat 16 ((s.x rd).toNat * (s.x rs).toNat)) 2#16 s

/-- `MULH rd, rs` (R181): the high half of the signed product. -/
def execMulh (rd rs : Reg) (s : State) : Result :=
  writeValue rd (BitVec.ofInt 16 (((s.x rd).toInt * (s.x rs).toInt) / 65536)) 2#16 s

/-- `MULHU rd, rs` (R182): the high half of the unsigned product. -/
def execMulhu (rd rs : Reg) (s : State) : Result :=
  writeValue rd (BitVec.ofNat 16 (((s.x rd).toNat * (s.x rs).toNat) / 65536)) 2#16 s

/-- `DIV rd, rs` (R183). -/
def execDiv (rd rs : Reg) (s : State) : Result :=
  writeUnlessZero (s.x rs) rd (signedQuotient (s.x rd) (s.x rs)) s

/-- `DIVU rd, rs` (R184). -/
def execDivu (rd rs : Reg) (s : State) : Result :=
  writeUnlessZero (s.x rs) rd (BitVec.ofNat 16 ((s.x rd).toNat / (s.x rs).toNat)) s

/-- `REM rd, rs` (R185). -/
def execRem (rd rs : Reg) (s : State) : Result :=
  writeUnlessZero (s.x rs) rd (signedRemainder (s.x rd) (s.x rs)) s

/-- `REMU rd, rs` (R186). -/
def execRemu (rd rs : Reg) (s : State) : Result :=
  writeUnlessZero (s.x rs) rd (BitVec.ofNat 16 ((s.x rd).toNat % (s.x rs).toNat)) s

end Sys2Proof.Machine
end

