-- ==== Sys2Proof/Machine/Shift.lean ====
section
/-! DEFINITION. Single-bit shifts and rotates, and the byte operations (spec/41_shift_muldiv.md sections 1 and 2). -/

namespace Sys2Proof.Machine

/-- `v[14:0] ++ b`: everything one place up, `b` entering at bit 0. -/
def shiftUp (v : Word) (b : Bool) : Word := v.extractLsb' 0 15 ++ BitVec.ofBool b

/-- `b ++ v[15:1]`: everything one place down, `b` entering at bit 15. -/
def shiftDown (b : Bool) (v : Word) : Word := BitVec.ofBool b ++ v.extractLsb' 1 15

/-- A shift's result and the bit that left, with the shift flags (R35). -/
def writeShift (rd : Reg) (r : Word) (cout : Bool) (s : State) : Result :=
  writeResult rd r (shiftFlags r cout s.flags) 2#16 s

/-- `SLL rd, rs` (R170). -/
def execSll (rd rs : Reg) (s : State) : Result := writeShift rd (shiftUp (s.x rs) false) ((s.x rs).getLsbD 15) s

/-- `SRL rd, rs` (R171). -/
def execSrl (rd rs : Reg) (s : State) : Result := writeShift rd (shiftDown false (s.x rs)) ((s.x rs).getLsbD 0) s

/-- `SRA rd, rs` (R172): the sign bit is kept. -/
def execSra (rd rs : Reg) (s : State) : Result :=
  writeShift rd (shiftDown ((s.x rs).getLsbD 15) (s.x rs)) ((s.x rs).getLsbD 0) s

/-- `ROL rd, rs` (R173). -/
def execRol (rd rs : Reg) (s : State) : Result :=
  writeShift rd (shiftUp (s.x rs) ((s.x rs).getLsbD 15)) ((s.x rs).getLsbD 15) s

/-- `ROR rd, rs` (R174). -/
def execRor (rd rs : Reg) (s : State) : Result :=
  writeShift rd (shiftDown ((s.x rs).getLsbD 0) (s.x rs)) ((s.x rs).getLsbD 0) s

/-- `RCL rd, rs` (R175): the old `C` enters at bit 0. -/
def execRcl (rd rs : Reg) (s : State) : Result := writeShift rd (shiftUp (s.x rs) s.flags.c) ((s.x rs).getLsbD 15) s

/-- `RCR rd, rs` (R176): the old `C` enters at bit 15. -/
def execRcr (rd rs : Reg) (s : State) : Result := writeShift rd (shiftDown s.flags.c (s.x rs)) ((s.x rs).getLsbD 0) s

/-- `SWAP rd, rs` (R177): the two bytes exchanged, no flag. -/
def execSwap (rd rs : Reg) (s : State) : Result :=
  writeValue rd ((s.x rs).extractLsb' 0 8 ++ (s.x rs).extractLsb' 8 8) 2#16 s

/-- `SEXT rd, rs` (R178): the low byte sign-extended, no flag. -/
def execSext (rd rs : Reg) (s : State) : Result := writeValue rd (sext8 (lowByte (s.x rs))) 2#16 s

end Sys2Proof.Machine
end

