-- ==== Sys2Proof/Machine/System.lean ====
section
/-! DEFINITION. System instructions and the bank switch (spec/46_system.md), software interrupt and return
(spec/60_exceptions.md R322, R325). There is one privilege level (R330). -/

namespace Sys2Proof.Machine

/-- `NOP` (R290). -/
def execNop (s : State) : Result := .next (s.advance 2#16)

/-- `HALT` (R291): `pc` keeps the address of the `HALT`. -/
def execHalt (s : State) : Result := .next { s with run := .halted }

/-- `EI` (R292): in force at the boundary that ends it. -/
def execEi (s : State) : Result := .next ({ s with ie := true }.advance 2#16)

/-- `DI` (R293): `IP` is kept. -/
def execDi (s : State) : Result := .next ({ s with ie := false }.advance 2#16)

/-- `SWI` (R322): taken whatever `IE` is; the saved address is that of the next instruction; `IP` is kept. -/
def execSwi (s : State) : Result := commitOrMemFault 0xFFFF#16 s (enterVector (s.nextPc 2#16) s)

/-- `RETI` (R325). -/
def execReti (s : State) : Result := commitOrMemFault 0xFFFF#16 s (returnFromInterrupt s)

/-- `GETF rd` (R296). -/
def execGetf (rd : Reg) (s : State) : Result := .next ((s.setX rd (flagImage s.flags)).advance 2#16)

/-- `SETF rs` (R297). -/
def execSetf (rs : Reg) (s : State) : Result := .next ((s.withFlags (flagsOfImage (s.x rs))).advance 2#16)

/-- `GETIV rd` (R298). -/
def execGetiv (rd : Reg) (s : State) : Result := .next ((s.setX rd s.iv).advance 2#16)

/-- `SETIV rs` (R299). -/
def execSetiv (rs : Reg) (s : State) : Result := .next ({ s with iv := s.x rs }.advance 2#16)

/-- `EXX` (R300): the selector toggles, no register value moves. -/
def execExx (s : State) : Result := .next ({ s with alt := !s.alt }.advance 2#16)

end Sys2Proof.Machine
end

