-- ==== Sys2Proof/Machine/Dispatch.lean ====
section
/-! DEFINITION. One arm per constructor of `Instr`: the call of its meaning. -/

namespace Sys2Proof.Machine

def exec (i : Instr) (s : State) : Host.Outcome State Fault Refusal :=
  match i with
  | .add rd rs1 rs2 => Sys2Proof.Machine.execAdd rd rs1 rs2 s
  | .sub rd rs1 rs2 => Sys2Proof.Machine.execSub rd rs1 rs2 s
  | .and rd rs1 rs2 => Sys2Proof.Machine.execAnd rd rs1 rs2 s
  | .or rd rs1 rs2 => Sys2Proof.Machine.execOr rd rs1 rs2 s
  | .xor rd rs1 rs2 => Sys2Proof.Machine.execXor rd rs1 rs2 s
  | .addi rd imm => Sys2Proof.Machine.execAddi rd imm s
  | .lw rd rs => Sys2Proof.Machine.execLw rd rs s
  | .lb rd rs => Sys2Proof.Machine.execLb rd rs s
  | .lbu rd rs => Sys2Proof.Machine.execLbu rd rs s
  | .sw rd rs => Sys2Proof.Machine.execSw rd rs s
  | .sb rd rs => Sys2Proof.Machine.execSb rd rs s
  | .beq off => Sys2Proof.Machine.execBeq off s
  | .bne off => Sys2Proof.Machine.execBne off s
  | .blt off => Sys2Proof.Machine.execBlt off s
  | .bge off => Sys2Proof.Machine.execBge off s
  | .bltu off => Sys2Proof.Machine.execBltu off s
  | .bgeu off => Sys2Proof.Machine.execBgeu off s
  | .bmi off => Sys2Proof.Machine.execBmi off s
  | .bpl off => Sys2Proof.Machine.execBpl off s
  | .bvs off => Sys2Proof.Machine.execBvs off s
  | .bvc off => Sys2Proof.Machine.execBvc off s
  | .bcs off => Sys2Proof.Machine.execBcs off s
  | .bcc off => Sys2Proof.Machine.execBcc off s
  | .bgt off => Sys2Proof.Machine.execBgt off s
  | .ble off => Sys2Proof.Machine.execBle off s
  | .bhi off => Sys2Proof.Machine.execBhi off s
  | .bls off => Sys2Proof.Machine.execBls off s
  | .jr rs => Sys2Proof.Machine.execJr rs s
  | .jalr rs => Sys2Proof.Machine.execJalr rs s
  | .j off => Sys2Proof.Machine.execJ off s
  | .sll rd rs => Sys2Proof.Machine.execSll rd rs s
  | .srl rd rs => Sys2Proof.Machine.execSrl rd rs s
  | .sra rd rs => Sys2Proof.Machine.execSra rd rs s
  | .rol rd rs => Sys2Proof.Machine.execRol rd rs s
  | .ror rd rs => Sys2Proof.Machine.execRor rd rs s
  | .rcl rd rs => Sys2Proof.Machine.execRcl rd rs s
  | .rcr rd rs => Sys2Proof.Machine.execRcr rd rs s
  | .swap rd rs => Sys2Proof.Machine.execSwap rd rs s
  | .sext rd rs => Sys2Proof.Machine.execSext rd rs s
  | .mul rd rs => Sys2Proof.Machine.execMul rd rs s
  | .mulh rd rs => Sys2Proof.Machine.execMulh rd rs s
  | .mulhu rd rs => Sys2Proof.Machine.execMulhu rd rs s
  | .div rd rs => Sys2Proof.Machine.execDiv rd rs s
  | .divu rd rs => Sys2Proof.Machine.execDivu rd rs s
  | .rem rd rs => Sys2Proof.Machine.execRem rd rs s
  | .remu rd rs => Sys2Proof.Machine.execRemu rd rs s
  | .mov rd rs => Sys2Proof.Machine.execMov rd rs s
  | .not rd rs => Sys2Proof.Machine.execNot rd rs s
  | .neg rd rs => Sys2Proof.Machine.execNeg rd rs s
  | .adc rd rs => Sys2Proof.Machine.execAdc rd rs s
  | .sbc rd rs => Sys2Proof.Machine.execSbc rd rs s
  | .cmp rd rs => Sys2Proof.Machine.execCmp rd rs s
  | .tst rd rs => Sys2Proof.Machine.execTst rd rs s
  | .push rs => Sys2Proof.Machine.execPush rs s
  | .pop rd => Sys2Proof.Machine.execPop rd s
  | .exx => Sys2Proof.Machine.execExx s
  | .ldi => Sys2Proof.Machine.execLdi s
  | .ldd => Sys2Proof.Machine.execLdd s
  | .ldir => Sys2Proof.Machine.execLdir s
  | .lddr => Sys2Proof.Machine.execLddr s
  | .fill => Sys2Proof.Machine.execFill s
  | .cpir => Sys2Proof.Machine.execCpir s
  | .inPort rd rs => Sys2Proof.Machine.execInPort rd rs s
  | .outPort rd rs => Sys2Proof.Machine.execOutPort rd rs s
  | .nop => Sys2Proof.Machine.execNop s
  | .halt => Sys2Proof.Machine.execHalt s
  | .ei => Sys2Proof.Machine.execEi s
  | .di => Sys2Proof.Machine.execDi s
  | .swi => Sys2Proof.Machine.execSwi s
  | .reti => Sys2Proof.Machine.execReti s
  | .getf rd => Sys2Proof.Machine.execGetf rd s
  | .setf rs => Sys2Proof.Machine.execSetf rs s
  | .getiv rd => Sys2Proof.Machine.execGetiv rd s
  | .setiv rs => Sys2Proof.Machine.execSetiv rs s
  | .addiExt rd rs imm => Sys2Proof.Machine.execAddiExt rd rs imm s
  | .andi rd rs imm => Sys2Proof.Machine.execAndi rd rs imm s
  | .ori rd rs imm => Sys2Proof.Machine.execOri rd rs imm s
  | .xori rd rs imm => Sys2Proof.Machine.execXori rd rs imm s
  | .cmpi rd imm => Sys2Proof.Machine.execCmpi rd imm s
  | .li rd imm => Sys2Proof.Machine.execLi rd imm s
  | .lwExt rd rs imm => Sys2Proof.Machine.execLwExt rd rs imm s
  | .lbExt rd rs imm => Sys2Proof.Machine.execLbExt rd rs imm s
  | .lbuExt rd rs imm => Sys2Proof.Machine.execLbuExt rd rs imm s
  | .swExt rd rs imm => Sys2Proof.Machine.execSwExt rd rs imm s
  | .sbExt rd rs imm => Sys2Proof.Machine.execSbExt rd rs imm s
  | .beqFar off => Sys2Proof.Machine.execBeqFar off s
  | .bneFar off => Sys2Proof.Machine.execBneFar off s
  | .bltFar off => Sys2Proof.Machine.execBltFar off s
  | .bgeFar off => Sys2Proof.Machine.execBgeFar off s
  | .bltuFar off => Sys2Proof.Machine.execBltuFar off s
  | .bgeuFar off => Sys2Proof.Machine.execBgeuFar off s
  | .bmiFar off => Sys2Proof.Machine.execBmiFar off s
  | .bplFar off => Sys2Proof.Machine.execBplFar off s
  | .bvsFar off => Sys2Proof.Machine.execBvsFar off s
  | .bvcFar off => Sys2Proof.Machine.execBvcFar off s
  | .bcsFar off => Sys2Proof.Machine.execBcsFar off s
  | .bccFar off => Sys2Proof.Machine.execBccFar off s
  | .bgtFar off => Sys2Proof.Machine.execBgtFar off s
  | .bleFar off => Sys2Proof.Machine.execBleFar off s
  | .bhiFar off => Sys2Proof.Machine.execBhiFar off s
  | .blsFar off => Sys2Proof.Machine.execBlsFar off s
  | .jFar off => Sys2Proof.Machine.execJFar off s
  | .jmp addr => Sys2Proof.Machine.execJmp addr s
  | .call addr => Sys2Proof.Machine.execCall addr s

end Sys2Proof.Machine
end

