-- ==== Sys2Proof/WellFormed.lean ====
section
/-! DEFINITION. Which terms of `Instr` an encoding stands for. The field types already bound every operand, so one check
is left: the 32 most distant backward offsets of the compact `J` are the words of `JR` and `JALR` (spec/30_encoding.md
R96, R102). -/

namespace Sys2Proof

/-- The 12-bit offsets −2048 to −2017 whose words 0x9800 to 0x981F are `JR` and `JALR`: `off12[11:5] == 0b1000000` (R102). -/
def inRegisterJumpSlice (off : BitVec 12) : Bool := off.extractLsb' 5 7 == 0b1000000#7

/-- The instruction is one the encoder may be given: every field at a value its encoding admits (R96, R119). -/
def Instr.wellFormed : Instr → Bool
  | .add _ _ _ => true
  | .sub _ _ _ => true
  | .and _ _ _ => true
  | .or _ _ _ => true
  | .xor _ _ _ => true
  | .addi _ _ => true
  | .lw _ _ => true
  | .lb _ _ => true
  | .lbu _ _ => true
  | .sw _ _ => true
  | .sb _ _ => true
  | .beq _ => true
  | .bne _ => true
  | .blt _ => true
  | .bge _ => true
  | .bltu _ => true
  | .bgeu _ => true
  | .bmi _ => true
  | .bpl _ => true
  | .bvs _ => true
  | .bvc _ => true
  | .bcs _ => true
  | .bcc _ => true
  | .bgt _ => true
  | .ble _ => true
  | .bhi _ => true
  | .bls _ => true
  | .jr _ => true
  | .jalr _ => true
  | .j off => !inRegisterJumpSlice off
  | .sll _ _ => true
  | .srl _ _ => true
  | .sra _ _ => true
  | .rol _ _ => true
  | .ror _ _ => true
  | .rcl _ _ => true
  | .rcr _ _ => true
  | .swap _ _ => true
  | .sext _ _ => true
  | .mul _ _ => true
  | .mulh _ _ => true
  | .mulhu _ _ => true
  | .div _ _ => true
  | .divu _ _ => true
  | .rem _ _ => true
  | .remu _ _ => true
  | .mov _ _ => true
  | .not _ _ => true
  | .neg _ _ => true
  | .adc _ _ => true
  | .sbc _ _ => true
  | .cmp _ _ => true
  | .tst _ _ => true
  | .push _ => true
  | .pop _ => true
  | .exx => true
  | .ldi => true
  | .ldd => true
  | .ldir => true
  | .lddr => true
  | .fill => true
  | .cpir => true
  | .inPort _ _ => true
  | .outPort _ _ => true
  | .nop => true
  | .halt => true
  | .ei => true
  | .di => true
  | .swi => true
  | .reti => true
  | .getf _ => true
  | .setf _ => true
  | .getiv _ => true
  | .setiv _ => true
  | .addiExt _ _ _ => true
  | .andi _ _ _ => true
  | .ori _ _ _ => true
  | .xori _ _ _ => true
  | .cmpi _ _ => true
  | .li _ _ => true
  | .lwExt _ _ _ => true
  | .lbExt _ _ _ => true
  | .lbuExt _ _ _ => true
  | .swExt _ _ _ => true
  | .sbExt _ _ _ => true
  | .beqFar _ => true
  | .bneFar _ => true
  | .bltFar _ => true
  | .bgeFar _ => true
  | .bltuFar _ => true
  | .bgeuFar _ => true
  | .bmiFar _ => true
  | .bplFar _ => true
  | .bvsFar _ => true
  | .bvcFar _ => true
  | .bcsFar _ => true
  | .bccFar _ => true
  | .bgtFar _ => true
  | .bleFar _ => true
  | .bhiFar _ => true
  | .blsFar _ => true
  | .jFar _ => true
  | .jmp _ => true
  | .call _ => true

end Sys2Proof
end

