-- ==== Sys2Proof/Decode.lean ====
section
/-! DEFINITION. The decoder, the encoder and the structured instruction record (spec/30_encoding.md R90 to R114,
spec/00_scope.md R14). The decoder is total on any words and any bytes and reads no machine state (R110). -/

namespace Sys2Proof

/-! ## Fields of a word -/

/-- `w[15:12]`, the primary opcode (R91). -/
def nib3 (w : Word) : Nibble := w.extractLsb' 12 4
/-- `w[11:8]`, the `rd` or `cond` field (R91). -/
def nib2 (w : Word) : Nibble := w.extractLsb' 8 4
/-- `w[7:4]`, the `rs` or `rs1` field (R91). -/
def nib1 (w : Word) : Nibble := w.extractLsb' 4 4
/-- `w[3:0]`, the `rs2`, `func` or `sub` field (R91, R93). -/
def nib0 (w : Word) : Nibble := w.extractLsb' 0 4
/-- `w[7:0]`, the `imm8` or `off8` field (R91). -/
def low8 (w : Word) : BitVec 8 := w.extractLsb' 0 8
/-- `w[11:0]`, the `off12` field (R91). -/
def low12 (w : Word) : BitVec 12 := w.extractLsb' 0 12

/-- A word from its four nibbles, most significant first. -/
def ofNibbles (a b c d : Nibble) : Word := a ++ b ++ c ++ d
/-- A word from two nibbles and its low byte, most significant first. -/
def ofByte (a b : Nibble) (c : BitVec 8) : Word := a ++ b ++ c

/-- The first word announces a second one: the 0xF prefix (R90). -/
def isExtended (w0 : Word) : Bool := nib3 w0 == 0xF#4

/-! ## Branch conditions -/

/-- The condition a `cond` field selects (R101, D4). -/
def condOf (c : Nibble) : Cond :=
  match c with
  | 0x0#4 => .eq
  | 0x1#4 => .ne
  | 0x2#4 => .lt
  | 0x3#4 => .ge
  | 0x4#4 => .ltu
  | 0x5#4 => .geu
  | 0x6#4 => .mi
  | 0x7#4 => .pl
  | 0x8#4 => .vs
  | 0x9#4 => .vc
  | 0xA#4 => .cs
  | 0xB#4 => .cc
  | 0xC#4 => .gt
  | 0xD#4 => .le
  | 0xE#4 => .hi
  | _ => .ls

/-- The `cond` field of a condition (R101, D4). -/
def Cond.code : Cond → Nibble
  | .eq => 0x0#4
  | .ne => 0x1#4
  | .lt => 0x2#4
  | .ge => 0x3#4
  | .ltu => 0x4#4
  | .geu => 0x5#4
  | .mi => 0x6#4
  | .pl => 0x7#4
  | .vs => 0x8#4
  | .vc => 0x9#4
  | .cs => 0xA#4
  | .cc => 0xB#4
  | .gt => 0xC#4
  | .le => 0xD#4
  | .hi => 0xE#4
  | .ls => 0xF#4

/-- The compact branch on a condition (R101). -/
def compactBranch (c : Cond) (off : BitVec 8) : Instr :=
  match c with
  | .eq => .beq off
  | .ne => .bne off
  | .lt => .blt off
  | .ge => .bge off
  | .ltu => .bltu off
  | .geu => .bgeu off
  | .mi => .bmi off
  | .pl => .bpl off
  | .vs => .bvs off
  | .vc => .bvc off
  | .cs => .bcs off
  | .cc => .bcc off
  | .gt => .bgt off
  | .le => .ble off
  | .hi => .bhi off
  | .ls => .bls off

/-- The far branch on a condition (R108). -/
def farBranch (c : Cond) (off : Word) : Instr :=
  match c with
  | .eq => .beqFar off
  | .ne => .bneFar off
  | .lt => .bltFar off
  | .ge => .bgeFar off
  | .ltu => .bltuFar off
  | .geu => .bgeuFar off
  | .mi => .bmiFar off
  | .pl => .bplFar off
  | .vs => .bvsFar off
  | .vc => .bvcFar off
  | .cs => .bcsFar off
  | .cc => .bccFar off
  | .gt => .bgtFar off
  | .le => .bleFar off
  | .hi => .bhiFar off
  | .ls => .blsFar off

/-! ## The decoder -/

/-- What decoding answers: an instruction, or one of the two decode faults by name (60_exceptions.md R310). -/
inductive DecodeResult where
  /-- The words are this instruction's encoding. -/
  | ok (i : Instr)
  /-- The words are no defined encoding (R112). -/
  | undefinedOpcode
  /-- A word the instruction needs is missing (20_memory.md R66). -/
  | truncatedFetch
  deriving DecidableEq, Repr

/-- The instruction when a must-be-zero field is zero, otherwise undefined (R109, D6). -/
def mustBeZero (a : Nibble) (i : Instr) : DecodeResult :=
  if a = 0x0#4 then .ok i else .undefinedOpcode

/-- The same for two must-be-zero fields (R109, D6). -/
def mustBeZero2 (a b : Nibble) (i : Instr) : DecodeResult :=
  if a = 0x0#4 ∧ b = 0x0#4 then .ok i else .undefinedOpcode

/-- Opcode 0x6, loads (R99). -/
def decodeLoad (a b c : Nibble) : DecodeResult :=
  match c with
  | 0x0#4 => .ok (.lw a b)
  | 0x1#4 => .ok (.lb a b)
  | 0x2#4 => .ok (.lbu a b)
  | _ => .undefinedOpcode

/-- Opcode 0x7, stores (R100). -/
def decodeStore (a b c : Nibble) : DecodeResult :=
  match c with
  | 0x0#4 => .ok (.sw a b)
  | 0x1#4 => .ok (.sb a b)
  | _ => .undefinedOpcode

/-- Opcode 0x9, jumps: the register forms have priority, every other word is `J` (R102, C3). -/
def decodeJump (off : BitVec 12) (b c : Nibble) : DecodeResult :=
  if inRegisterJumpSlice off then
    if b.getLsbD 0 then .ok (.jalr c) else .ok (.jr c)
  else .ok (.j off)

/-- Opcode 0xA, shifts and byte operations (R103). -/
def decodeShift (a b c : Nibble) : DecodeResult :=
  match c with
  | 0x0#4 => .ok (.sll a b)
  | 0x1#4 => .ok (.srl a b)
  | 0x2#4 => .ok (.sra a b)
  | 0x3#4 => .ok (.rol a b)
  | 0x4#4 => .ok (.ror a b)
  | 0x5#4 => .ok (.rcl a b)
  | 0x6#4 => .ok (.rcr a b)
  | 0x7#4 => .ok (.swap a b)
  | 0x8#4 => .ok (.sext a b)
  | _ => .undefinedOpcode

/-- Opcode 0xB, multiply and divide (R104). -/
def decodeMulDiv (a b c : Nibble) : DecodeResult :=
  match c with
  | 0x0#4 => .ok (.mul a b)
  | 0x1#4 => .ok (.mulh a b)
  | 0x2#4 => .ok (.mulhu a b)
  | 0x3#4 => .ok (.div a b)
  | 0x4#4 => .ok (.divu a b)
  | 0x5#4 => .ok (.rem a b)
  | 0x6#4 => .ok (.remu a b)
  | _ => .undefinedOpcode

/-- Opcode 0xC, miscellaneous (R105). -/
def decodeMisc (a b c : Nibble) : DecodeResult :=
  match c with
  | 0x0#4 => .ok (.mov a b)
  | 0x1#4 => .ok (.not a b)
  | 0x2#4 => .ok (.neg a b)
  | 0x3#4 => .ok (.adc a b)
  | 0x4#4 => .ok (.sbc a b)
  | 0x5#4 => .ok (.cmp a b)
  | 0x6#4 => .ok (.tst a b)
  | 0x7#4 => mustBeZero a (.push b)
  | 0x8#4 => mustBeZero b (.pop a)
  | 0x9#4 => mustBeZero2 a b .exx
  | 0xA#4 => mustBeZero2 a b .ldi
  | 0xB#4 => mustBeZero2 a b .ldd
  | 0xC#4 => mustBeZero2 a b .ldir
  | 0xD#4 => mustBeZero2 a b .lddr
  | 0xE#4 => mustBeZero2 a b .fill
  | _ => mustBeZero2 a b .cpir

/-- Opcode 0xD, port input and output (R106). -/
def decodePort (a b c : Nibble) : DecodeResult :=
  match c with
  | 0x0#4 => .ok (.inPort a b)
  | 0x1#4 => .ok (.outPort a b)
  | _ => .undefinedOpcode

/-- Opcode 0xE, system (R107). -/
def decodeSystem (a b c : Nibble) : DecodeResult :=
  match c with
  | 0x0#4 => mustBeZero2 a b .nop
  | 0x1#4 => mustBeZero2 a b .halt
  | 0x2#4 => mustBeZero2 a b .ei
  | 0x3#4 => mustBeZero2 a b .di
  | 0x4#4 => mustBeZero2 a b .swi
  | 0x5#4 => mustBeZero2 a b .reti
  | 0x6#4 => mustBeZero b (.getf a)
  | 0x7#4 => mustBeZero a (.setf b)
  | 0x8#4 => mustBeZero b (.getiv a)
  | 0x9#4 => mustBeZero a (.setiv b)
  | _ => .undefinedOpcode

/-- Opcode 0xF, extended instructions, with the second word `w1` (R108). -/
def decodeExtended (a b c : Nibble) (w1 : Word) : DecodeResult :=
  match c with
  | 0x0#4 => .ok (.addiExt a b w1)
  | 0x1#4 => .ok (.andi a b w1)
  | 0x2#4 => .ok (.ori a b w1)
  | 0x3#4 => .ok (.xori a b w1)
  | 0x4#4 => mustBeZero b (.cmpi a w1)
  | 0x5#4 => mustBeZero b (.li a w1)
  | 0x6#4 => .ok (.lwExt a b w1)
  | 0x7#4 => .ok (.lbExt a b w1)
  | 0x8#4 => .ok (.lbuExt a b w1)
  | 0x9#4 => .ok (.swExt a b w1)
  | 0xA#4 => .ok (.sbExt a b w1)
  | 0xB#4 => mustBeZero b (farBranch (condOf a) w1)
  | 0xC#4 => mustBeZero2 a b (.jFar w1)
  | 0xD#4 => mustBeZero2 a b (.jmp w1)
  | 0xE#4 => mustBeZero2 a b (.call w1)
  | _ => .undefinedOpcode

/-- A compact first word (R110); an extended first word alone is a truncated fetch (log 12). -/
def decodeCompact (w0 : Word) : DecodeResult :=
  match nib3 w0 with
  | 0x0#4 => .ok (.add (nib2 w0) (nib1 w0) (nib0 w0))
  | 0x1#4 => .ok (.sub (nib2 w0) (nib1 w0) (nib0 w0))
  | 0x2#4 => .ok (.and (nib2 w0) (nib1 w0) (nib0 w0))
  | 0x3#4 => .ok (.or (nib2 w0) (nib1 w0) (nib0 w0))
  | 0x4#4 => .ok (.xor (nib2 w0) (nib1 w0) (nib0 w0))
  | 0x5#4 => .ok (.addi (nib2 w0) (low8 w0))
  | 0x6#4 => decodeLoad (nib2 w0) (nib1 w0) (nib0 w0)
  | 0x7#4 => decodeStore (nib2 w0) (nib1 w0) (nib0 w0)
  | 0x8#4 => .ok (compactBranch (condOf (nib2 w0)) (low8 w0))
  | 0x9#4 => decodeJump (low12 w0) (nib1 w0) (nib0 w0)
  | 0xA#4 => decodeShift (nib2 w0) (nib1 w0) (nib0 w0)
  | 0xB#4 => decodeMulDiv (nib2 w0) (nib1 w0) (nib0 w0)
  | 0xC#4 => decodeMisc (nib2 w0) (nib1 w0) (nib0 w0)
  | 0xD#4 => decodePort (nib2 w0) (nib1 w0) (nib0 w0)
  | 0xE#4 => decodeSystem (nib2 w0) (nib1 w0) (nib0 w0)
  | _ => .truncatedFetch

/-- What a fetch supplies: one word, two words, or too few bytes (20_memory.md R66). -/
inductive Fetched where
  /-- A first word without the 0xF prefix. -/
  | compact (w0 : Word)
  /-- A first word with the 0xF prefix, and the second word. -/
  | extended (w0 w1 : Word)
  /-- A byte the instruction needs lies beyond the end. -/
  | truncated
  deriving DecidableEq, Repr

/-- `Decode(w0, w1)` of R110. -/
def decode : Fetched → DecodeResult
  | .compact w0 => decodeCompact w0
  | .extended w0 w1 => decodeExtended (nib2 w0) (nib1 w0) (nib0 w0) w1
  | .truncated => .truncatedFetch

/-- The words at the front of a byte string, little-endian, by the steps of 20_memory.md R62 and R66. -/
def fetchFrom : List Byte → Fetched
  | b0 :: b1 :: rest =>
    let w0 : Word := b1 ++ b0
    if isExtended w0 then
      match rest with
      | b2 :: b3 :: _ => .extended w0 (b3 ++ b2)
      | _ => .truncated
    else .compact w0
  | _ => .truncated

/-- The decoder on bytes: total on any byte string. -/
def decodeBytes (bytes : List Byte) : DecodeResult := decode (fetchFrom bytes)

/-! ## The encoder -/

/-- The words of an instruction, first word first, from the patterns of R114 (fields of R98 to R108). -/
def encode : Instr → List Word
  | .add rd rs1 rs2 => [ofNibbles 0x0#4 rd rs1 rs2]
  | .sub rd rs1 rs2 => [ofNibbles 0x1#4 rd rs1 rs2]
  | .and rd rs1 rs2 => [ofNibbles 0x2#4 rd rs1 rs2]
  | .or rd rs1 rs2 => [ofNibbles 0x3#4 rd rs1 rs2]
  | .xor rd rs1 rs2 => [ofNibbles 0x4#4 rd rs1 rs2]
  | .addi rd imm => [ofByte 0x5#4 rd imm]
  | .lw rd rs => [ofNibbles 0x6#4 rd rs 0x0#4]
  | .lb rd rs => [ofNibbles 0x6#4 rd rs 0x1#4]
  | .lbu rd rs => [ofNibbles 0x6#4 rd rs 0x2#4]
  | .sw rd rs => [ofNibbles 0x7#4 rd rs 0x0#4]
  | .sb rd rs => [ofNibbles 0x7#4 rd rs 0x1#4]
  | .beq off => [ofByte 0x8#4 0x0#4 off]
  | .bne off => [ofByte 0x8#4 0x1#4 off]
  | .blt off => [ofByte 0x8#4 0x2#4 off]
  | .bge off => [ofByte 0x8#4 0x3#4 off]
  | .bltu off => [ofByte 0x8#4 0x4#4 off]
  | .bgeu off => [ofByte 0x8#4 0x5#4 off]
  | .bmi off => [ofByte 0x8#4 0x6#4 off]
  | .bpl off => [ofByte 0x8#4 0x7#4 off]
  | .bvs off => [ofByte 0x8#4 0x8#4 off]
  | .bvc off => [ofByte 0x8#4 0x9#4 off]
  | .bcs off => [ofByte 0x8#4 0xA#4 off]
  | .bcc off => [ofByte 0x8#4 0xB#4 off]
  | .bgt off => [ofByte 0x8#4 0xC#4 off]
  | .ble off => [ofByte 0x8#4 0xD#4 off]
  | .bhi off => [ofByte 0x8#4 0xE#4 off]
  | .bls off => [ofByte 0x8#4 0xF#4 off]
  | .jr rs => [ofNibbles 0x9#4 0x8#4 0x0#4 rs]
  | .jalr rs => [ofNibbles 0x9#4 0x8#4 0x1#4 rs]
  | .j off => [0x9#4 ++ off]
  | .sll rd rs => [ofNibbles 0xA#4 rd rs 0x0#4]
  | .srl rd rs => [ofNibbles 0xA#4 rd rs 0x1#4]
  | .sra rd rs => [ofNibbles 0xA#4 rd rs 0x2#4]
  | .rol rd rs => [ofNibbles 0xA#4 rd rs 0x3#4]
  | .ror rd rs => [ofNibbles 0xA#4 rd rs 0x4#4]
  | .rcl rd rs => [ofNibbles 0xA#4 rd rs 0x5#4]
  | .rcr rd rs => [ofNibbles 0xA#4 rd rs 0x6#4]
  | .swap rd rs => [ofNibbles 0xA#4 rd rs 0x7#4]
  | .sext rd rs => [ofNibbles 0xA#4 rd rs 0x8#4]
  | .mul rd rs => [ofNibbles 0xB#4 rd rs 0x0#4]
  | .mulh rd rs => [ofNibbles 0xB#4 rd rs 0x1#4]
  | .mulhu rd rs => [ofNibbles 0xB#4 rd rs 0x2#4]
  | .div rd rs => [ofNibbles 0xB#4 rd rs 0x3#4]
  | .divu rd rs => [ofNibbles 0xB#4 rd rs 0x4#4]
  | .rem rd rs => [ofNibbles 0xB#4 rd rs 0x5#4]
  | .remu rd rs => [ofNibbles 0xB#4 rd rs 0x6#4]
  | .mov rd rs => [ofNibbles 0xC#4 rd rs 0x0#4]
  | .not rd rs => [ofNibbles 0xC#4 rd rs 0x1#4]
  | .neg rd rs => [ofNibbles 0xC#4 rd rs 0x2#4]
  | .adc rd rs => [ofNibbles 0xC#4 rd rs 0x3#4]
  | .sbc rd rs => [ofNibbles 0xC#4 rd rs 0x4#4]
  | .cmp rd rs => [ofNibbles 0xC#4 rd rs 0x5#4]
  | .tst rd rs => [ofNibbles 0xC#4 rd rs 0x6#4]
  | .push rs => [ofNibbles 0xC#4 0x0#4 rs 0x7#4]
  | .pop rd => [ofNibbles 0xC#4 rd 0x0#4 0x8#4]
  | .exx => [ofNibbles 0xC#4 0x0#4 0x0#4 0x9#4]
  | .ldi => [ofNibbles 0xC#4 0x0#4 0x0#4 0xA#4]
  | .ldd => [ofNibbles 0xC#4 0x0#4 0x0#4 0xB#4]
  | .ldir => [ofNibbles 0xC#4 0x0#4 0x0#4 0xC#4]
  | .lddr => [ofNibbles 0xC#4 0x0#4 0x0#4 0xD#4]
  | .fill => [ofNibbles 0xC#4 0x0#4 0x0#4 0xE#4]
  | .cpir => [ofNibbles 0xC#4 0x0#4 0x0#4 0xF#4]
  | .inPort rd rs => [ofNibbles 0xD#4 rd rs 0x0#4]
  | .outPort rd rs => [ofNibbles 0xD#4 rd rs 0x1#4]
  | .nop => [ofNibbles 0xE#4 0x0#4 0x0#4 0x0#4]
  | .halt => [ofNibbles 0xE#4 0x0#4 0x0#4 0x1#4]
  | .ei => [ofNibbles 0xE#4 0x0#4 0x0#4 0x2#4]
  | .di => [ofNibbles 0xE#4 0x0#4 0x0#4 0x3#4]
  | .swi => [ofNibbles 0xE#4 0x0#4 0x0#4 0x4#4]
  | .reti => [ofNibbles 0xE#4 0x0#4 0x0#4 0x5#4]
  | .getf rd => [ofNibbles 0xE#4 rd 0x0#4 0x6#4]
  | .setf rs => [ofNibbles 0xE#4 0x0#4 rs 0x7#4]
  | .getiv rd => [ofNibbles 0xE#4 rd 0x0#4 0x8#4]
  | .setiv rs => [ofNibbles 0xE#4 0x0#4 rs 0x9#4]
  | .addiExt rd rs imm => [ofNibbles 0xF#4 rd rs 0x0#4, imm]
  | .andi rd rs imm => [ofNibbles 0xF#4 rd rs 0x1#4, imm]
  | .ori rd rs imm => [ofNibbles 0xF#4 rd rs 0x2#4, imm]
  | .xori rd rs imm => [ofNibbles 0xF#4 rd rs 0x3#4, imm]
  | .cmpi rd imm => [ofNibbles 0xF#4 rd 0x0#4 0x4#4, imm]
  | .li rd imm => [ofNibbles 0xF#4 rd 0x0#4 0x5#4, imm]
  | .lwExt rd rs imm => [ofNibbles 0xF#4 rd rs 0x6#4, imm]
  | .lbExt rd rs imm => [ofNibbles 0xF#4 rd rs 0x7#4, imm]
  | .lbuExt rd rs imm => [ofNibbles 0xF#4 rd rs 0x8#4, imm]
  | .swExt rd rs imm => [ofNibbles 0xF#4 rd rs 0x9#4, imm]
  | .sbExt rd rs imm => [ofNibbles 0xF#4 rd rs 0xA#4, imm]
  | .beqFar off => [ofNibbles 0xF#4 0x0#4 0x0#4 0xB#4, off]
  | .bneFar off => [ofNibbles 0xF#4 0x1#4 0x0#4 0xB#4, off]
  | .bltFar off => [ofNibbles 0xF#4 0x2#4 0x0#4 0xB#4, off]
  | .bgeFar off => [ofNibbles 0xF#4 0x3#4 0x0#4 0xB#4, off]
  | .bltuFar off => [ofNibbles 0xF#4 0x4#4 0x0#4 0xB#4, off]
  | .bgeuFar off => [ofNibbles 0xF#4 0x5#4 0x0#4 0xB#4, off]
  | .bmiFar off => [ofNibbles 0xF#4 0x6#4 0x0#4 0xB#4, off]
  | .bplFar off => [ofNibbles 0xF#4 0x7#4 0x0#4 0xB#4, off]
  | .bvsFar off => [ofNibbles 0xF#4 0x8#4 0x0#4 0xB#4, off]
  | .bvcFar off => [ofNibbles 0xF#4 0x9#4 0x0#4 0xB#4, off]
  | .bcsFar off => [ofNibbles 0xF#4 0xA#4 0x0#4 0xB#4, off]
  | .bccFar off => [ofNibbles 0xF#4 0xB#4 0x0#4 0xB#4, off]
  | .bgtFar off => [ofNibbles 0xF#4 0xC#4 0x0#4 0xB#4, off]
  | .bleFar off => [ofNibbles 0xF#4 0xD#4 0x0#4 0xB#4, off]
  | .bhiFar off => [ofNibbles 0xF#4 0xE#4 0x0#4 0xB#4, off]
  | .blsFar off => [ofNibbles 0xF#4 0xF#4 0x0#4 0xB#4, off]
  | .jFar off => [ofNibbles 0xF#4 0x0#4 0x0#4 0xC#4, off]
  | .jmp addr => [ofNibbles 0xF#4 0x0#4 0x0#4 0xD#4, addr]
  | .call addr => [ofNibbles 0xF#4 0x0#4 0x0#4 0xE#4, addr]

/-- A word's two bytes, low byte first (20_memory.md R62). -/
def wordBytes (w : Word) : List Byte := [w.extractLsb' 0 8, w.extractLsb' 8 8]

/-- The bytes of an instruction as memory holds them (20_memory.md R62). -/
def encodeBytes (i : Instr) : List Byte := (encode i).flatMap wordBytes

/-- How many bytes an instruction occupies: 2 per word (R90). -/
def Instr.width (i : Instr) : Nat := 2 * (encode i).length

/-! ## The table's words -/

/-- The bytes of an instruction given as one number of `nbits` bits, bit 0 the least significant bit of the first word,
every bit above `nbits` zero, up to the longest instruction (4 bytes, R90). -/
def tableBytes (nbits w : Nat) : List Byte :=
  let v := w % 2 ^ nbits
  [BitVec.ofNat 8 v, BitVec.ofNat 8 (v / 2 ^ 8), BitVec.ofNat 8 (v / 2 ^ 16), BitVec.ofNat 8 (v / 2 ^ 24)]

/-- The instruction the decoder reads from a word of spec/opcode_table.json, laid out in memory order. -/
def decodeTableWord (nbits w : Nat) : Option Instr :=
  match decodeBytes (tableBytes nbits w) with
  | .ok i => some i
  | .undefinedOpcode => none
  | .truncatedFetch => none

/-! ## The structured instruction record (00_scope.md R14) -/

/-- The seven formats (R92). -/
inductive Format where
  | r | i | s | b | j | jr | x
  deriving DecidableEq, Repr

/-- The record of 00_scope.md R14; a field the format lacks is 0 (log 11). -/
structure InstrRecord where
  mnemonic : String
  format : Format
  opcode : Nibble
  rd : Nibble := 0
  rs : Nibble := 0
  rs2 : Nibble := 0
  func : Nibble := 0
  cond : Nibble := 0
  imm : Word := 0
  offset : Int := 0
  width : Nat := 2
  deriving DecidableEq, Repr

/-- The record of an instruction: each field as the table of 00_scope.md R14 gives it (log 11 on compact `ADDI`). -/
def Instr.record : Instr → InstrRecord
  | .add rd rs1 rs2 => { mnemonic := "ADD", format := .r, opcode := 0x0#4, rd := rd, rs := rs1, rs2 := rs2 }
  | .sub rd rs1 rs2 => { mnemonic := "SUB", format := .r, opcode := 0x1#4, rd := rd, rs := rs1, rs2 := rs2 }
  | .and rd rs1 rs2 => { mnemonic := "AND", format := .r, opcode := 0x2#4, rd := rd, rs := rs1, rs2 := rs2 }
  | .or rd rs1 rs2 => { mnemonic := "OR", format := .r, opcode := 0x3#4, rd := rd, rs := rs1, rs2 := rs2 }
  | .xor rd rs1 rs2 => { mnemonic := "XOR", format := .r, opcode := 0x4#4, rd := rd, rs := rs1, rs2 := rs2 }
  | .addi rd imm => { mnemonic := "ADDI", format := .i, opcode := 0x5#4, rd := rd, imm := imm.signExtend 16 }
  | .lw rd rs => { mnemonic := "LW", format := .s, opcode := 0x6#4, rd := rd, rs := rs, func := 0x0#4 }
  | .lb rd rs => { mnemonic := "LB", format := .s, opcode := 0x6#4, rd := rd, rs := rs, func := 0x1#4 }
  | .lbu rd rs => { mnemonic := "LBU", format := .s, opcode := 0x6#4, rd := rd, rs := rs, func := 0x2#4 }
  | .sw rd rs => { mnemonic := "SW", format := .s, opcode := 0x7#4, rd := rd, rs := rs, func := 0x0#4 }
  | .sb rd rs => { mnemonic := "SB", format := .s, opcode := 0x7#4, rd := rd, rs := rs, func := 0x1#4 }
  | .beq off => { mnemonic := "BEQ", format := .b, opcode := 0x8#4, cond := 0x0#4, offset := off.toInt }
  | .bne off => { mnemonic := "BNE", format := .b, opcode := 0x8#4, cond := 0x1#4, offset := off.toInt }
  | .blt off => { mnemonic := "BLT", format := .b, opcode := 0x8#4, cond := 0x2#4, offset := off.toInt }
  | .bge off => { mnemonic := "BGE", format := .b, opcode := 0x8#4, cond := 0x3#4, offset := off.toInt }
  | .bltu off => { mnemonic := "BLTU", format := .b, opcode := 0x8#4, cond := 0x4#4, offset := off.toInt }
  | .bgeu off => { mnemonic := "BGEU", format := .b, opcode := 0x8#4, cond := 0x5#4, offset := off.toInt }
  | .bmi off => { mnemonic := "BMI", format := .b, opcode := 0x8#4, cond := 0x6#4, offset := off.toInt }
  | .bpl off => { mnemonic := "BPL", format := .b, opcode := 0x8#4, cond := 0x7#4, offset := off.toInt }
  | .bvs off => { mnemonic := "BVS", format := .b, opcode := 0x8#4, cond := 0x8#4, offset := off.toInt }
  | .bvc off => { mnemonic := "BVC", format := .b, opcode := 0x8#4, cond := 0x9#4, offset := off.toInt }
  | .bcs off => { mnemonic := "BCS", format := .b, opcode := 0x8#4, cond := 0xA#4, offset := off.toInt }
  | .bcc off => { mnemonic := "BCC", format := .b, opcode := 0x8#4, cond := 0xB#4, offset := off.toInt }
  | .bgt off => { mnemonic := "BGT", format := .b, opcode := 0x8#4, cond := 0xC#4, offset := off.toInt }
  | .ble off => { mnemonic := "BLE", format := .b, opcode := 0x8#4, cond := 0xD#4, offset := off.toInt }
  | .bhi off => { mnemonic := "BHI", format := .b, opcode := 0x8#4, cond := 0xE#4, offset := off.toInt }
  | .bls off => { mnemonic := "BLS", format := .b, opcode := 0x8#4, cond := 0xF#4, offset := off.toInt }
  | .jr rs => { mnemonic := "JR", format := .jr, opcode := 0x9#4, rs := rs }
  | .jalr rs => { mnemonic := "JALR", format := .jr, opcode := 0x9#4, rs := rs }
  | .j off => { mnemonic := "J", format := .j, opcode := 0x9#4, offset := off.toInt }
  | .sll rd rs => { mnemonic := "SLL", format := .s, opcode := 0xA#4, rd := rd, rs := rs, func := 0x0#4 }
  | .srl rd rs => { mnemonic := "SRL", format := .s, opcode := 0xA#4, rd := rd, rs := rs, func := 0x1#4 }
  | .sra rd rs => { mnemonic := "SRA", format := .s, opcode := 0xA#4, rd := rd, rs := rs, func := 0x2#4 }
  | .rol rd rs => { mnemonic := "ROL", format := .s, opcode := 0xA#4, rd := rd, rs := rs, func := 0x3#4 }
  | .ror rd rs => { mnemonic := "ROR", format := .s, opcode := 0xA#4, rd := rd, rs := rs, func := 0x4#4 }
  | .rcl rd rs => { mnemonic := "RCL", format := .s, opcode := 0xA#4, rd := rd, rs := rs, func := 0x5#4 }
  | .rcr rd rs => { mnemonic := "RCR", format := .s, opcode := 0xA#4, rd := rd, rs := rs, func := 0x6#4 }
  | .swap rd rs => { mnemonic := "SWAP", format := .s, opcode := 0xA#4, rd := rd, rs := rs, func := 0x7#4 }
  | .sext rd rs => { mnemonic := "SEXT", format := .s, opcode := 0xA#4, rd := rd, rs := rs, func := 0x8#4 }
  | .mul rd rs => { mnemonic := "MUL", format := .s, opcode := 0xB#4, rd := rd, rs := rs, func := 0x0#4 }
  | .mulh rd rs => { mnemonic := "MULH", format := .s, opcode := 0xB#4, rd := rd, rs := rs, func := 0x1#4 }
  | .mulhu rd rs => { mnemonic := "MULHU", format := .s, opcode := 0xB#4, rd := rd, rs := rs, func := 0x2#4 }
  | .div rd rs => { mnemonic := "DIV", format := .s, opcode := 0xB#4, rd := rd, rs := rs, func := 0x3#4 }
  | .divu rd rs => { mnemonic := "DIVU", format := .s, opcode := 0xB#4, rd := rd, rs := rs, func := 0x4#4 }
  | .rem rd rs => { mnemonic := "REM", format := .s, opcode := 0xB#4, rd := rd, rs := rs, func := 0x5#4 }
  | .remu rd rs => { mnemonic := "REMU", format := .s, opcode := 0xB#4, rd := rd, rs := rs, func := 0x6#4 }
  | .mov rd rs => { mnemonic := "MOV", format := .s, opcode := 0xC#4, rd := rd, rs := rs, func := 0x0#4 }
  | .not rd rs => { mnemonic := "NOT", format := .s, opcode := 0xC#4, rd := rd, rs := rs, func := 0x1#4 }
  | .neg rd rs => { mnemonic := "NEG", format := .s, opcode := 0xC#4, rd := rd, rs := rs, func := 0x2#4 }
  | .adc rd rs => { mnemonic := "ADC", format := .s, opcode := 0xC#4, rd := rd, rs := rs, func := 0x3#4 }
  | .sbc rd rs => { mnemonic := "SBC", format := .s, opcode := 0xC#4, rd := rd, rs := rs, func := 0x4#4 }
  | .cmp rd rs => { mnemonic := "CMP", format := .s, opcode := 0xC#4, rd := rd, rs := rs, func := 0x5#4 }
  | .tst rd rs => { mnemonic := "TST", format := .s, opcode := 0xC#4, rd := rd, rs := rs, func := 0x6#4 }
  | .push rs => { mnemonic := "PUSH", format := .s, opcode := 0xC#4, rs := rs, func := 0x7#4 }
  | .pop rd => { mnemonic := "POP", format := .s, opcode := 0xC#4, rd := rd, func := 0x8#4 }
  | .exx => { mnemonic := "EXX", format := .s, opcode := 0xC#4, func := 0x9#4 }
  | .ldi => { mnemonic := "LDI", format := .s, opcode := 0xC#4, func := 0xA#4 }
  | .ldd => { mnemonic := "LDD", format := .s, opcode := 0xC#4, func := 0xB#4 }
  | .ldir => { mnemonic := "LDIR", format := .s, opcode := 0xC#4, func := 0xC#4 }
  | .lddr => { mnemonic := "LDDR", format := .s, opcode := 0xC#4, func := 0xD#4 }
  | .fill => { mnemonic := "FILL", format := .s, opcode := 0xC#4, func := 0xE#4 }
  | .cpir => { mnemonic := "CPIR", format := .s, opcode := 0xC#4, func := 0xF#4 }
  | .inPort rd rs => { mnemonic := "IN", format := .s, opcode := 0xD#4, rd := rd, rs := rs, func := 0x0#4 }
  | .outPort rd rs => { mnemonic := "OUT", format := .s, opcode := 0xD#4, rd := rd, rs := rs, func := 0x1#4 }
  | .nop => { mnemonic := "NOP", format := .s, opcode := 0xE#4, func := 0x0#4 }
  | .halt => { mnemonic := "HALT", format := .s, opcode := 0xE#4, func := 0x1#4 }
  | .ei => { mnemonic := "EI", format := .s, opcode := 0xE#4, func := 0x2#4 }
  | .di => { mnemonic := "DI", format := .s, opcode := 0xE#4, func := 0x3#4 }
  | .swi => { mnemonic := "SWI", format := .s, opcode := 0xE#4, func := 0x4#4 }
  | .reti => { mnemonic := "RETI", format := .s, opcode := 0xE#4, func := 0x5#4 }
  | .getf rd => { mnemonic := "GETF", format := .s, opcode := 0xE#4, rd := rd, func := 0x6#4 }
  | .setf rs => { mnemonic := "SETF", format := .s, opcode := 0xE#4, rs := rs, func := 0x7#4 }
  | .getiv rd => { mnemonic := "GETIV", format := .s, opcode := 0xE#4, rd := rd, func := 0x8#4 }
  | .setiv rs => { mnemonic := "SETIV", format := .s, opcode := 0xE#4, rs := rs, func := 0x9#4 }
  | .addiExt rd rs imm => { mnemonic := "ADDI", format := .x, opcode := 0xF#4, rd := rd, rs := rs, func := 0x0#4, imm := imm, width := 4 }
  | .andi rd rs imm => { mnemonic := "ANDI", format := .x, opcode := 0xF#4, rd := rd, rs := rs, func := 0x1#4, imm := imm, width := 4 }
  | .ori rd rs imm => { mnemonic := "ORI", format := .x, opcode := 0xF#4, rd := rd, rs := rs, func := 0x2#4, imm := imm, width := 4 }
  | .xori rd rs imm => { mnemonic := "XORI", format := .x, opcode := 0xF#4, rd := rd, rs := rs, func := 0x3#4, imm := imm, width := 4 }
  | .cmpi rd imm => { mnemonic := "CMPI", format := .x, opcode := 0xF#4, rd := rd, func := 0x4#4, imm := imm, width := 4 }
  | .li rd imm => { mnemonic := "LI", format := .x, opcode := 0xF#4, rd := rd, func := 0x5#4, imm := imm, width := 4 }
  | .lwExt rd rs imm => { mnemonic := "LW", format := .x, opcode := 0xF#4, rd := rd, rs := rs, func := 0x6#4, imm := imm, width := 4 }
  | .lbExt rd rs imm => { mnemonic := "LB", format := .x, opcode := 0xF#4, rd := rd, rs := rs, func := 0x7#4, imm := imm, width := 4 }
  | .lbuExt rd rs imm => { mnemonic := "LBU", format := .x, opcode := 0xF#4, rd := rd, rs := rs, func := 0x8#4, imm := imm, width := 4 }
  | .swExt rd rs imm => { mnemonic := "SW", format := .x, opcode := 0xF#4, rd := rd, rs := rs, func := 0x9#4, imm := imm, width := 4 }
  | .sbExt rd rs imm => { mnemonic := "SB", format := .x, opcode := 0xF#4, rd := rd, rs := rs, func := 0xA#4, imm := imm, width := 4 }
  | .beqFar off => { mnemonic := "BEQ", format := .x, opcode := 0xF#4, cond := 0x0#4, offset := off.toInt, imm := off, func := 0xB#4, width := 4 }
  | .bneFar off => { mnemonic := "BNE", format := .x, opcode := 0xF#4, cond := 0x1#4, offset := off.toInt, imm := off, func := 0xB#4, width := 4 }
  | .bltFar off => { mnemonic := "BLT", format := .x, opcode := 0xF#4, cond := 0x2#4, offset := off.toInt, imm := off, func := 0xB#4, width := 4 }
  | .bgeFar off => { mnemonic := "BGE", format := .x, opcode := 0xF#4, cond := 0x3#4, offset := off.toInt, imm := off, func := 0xB#4, width := 4 }
  | .bltuFar off => { mnemonic := "BLTU", format := .x, opcode := 0xF#4, cond := 0x4#4, offset := off.toInt, imm := off, func := 0xB#4, width := 4 }
  | .bgeuFar off => { mnemonic := "BGEU", format := .x, opcode := 0xF#4, cond := 0x5#4, offset := off.toInt, imm := off, func := 0xB#4, width := 4 }
  | .bmiFar off => { mnemonic := "BMI", format := .x, opcode := 0xF#4, cond := 0x6#4, offset := off.toInt, imm := off, func := 0xB#4, width := 4 }
  | .bplFar off => { mnemonic := "BPL", format := .x, opcode := 0xF#4, cond := 0x7#4, offset := off.toInt, imm := off, func := 0xB#4, width := 4 }
  | .bvsFar off => { mnemonic := "BVS", format := .x, opcode := 0xF#4, cond := 0x8#4, offset := off.toInt, imm := off, func := 0xB#4, width := 4 }
  | .bvcFar off => { mnemonic := "BVC", format := .x, opcode := 0xF#4, cond := 0x9#4, offset := off.toInt, imm := off, func := 0xB#4, width := 4 }
  | .bcsFar off => { mnemonic := "BCS", format := .x, opcode := 0xF#4, cond := 0xA#4, offset := off.toInt, imm := off, func := 0xB#4, width := 4 }
  | .bccFar off => { mnemonic := "BCC", format := .x, opcode := 0xF#4, cond := 0xB#4, offset := off.toInt, imm := off, func := 0xB#4, width := 4 }
  | .bgtFar off => { mnemonic := "BGT", format := .x, opcode := 0xF#4, cond := 0xC#4, offset := off.toInt, imm := off, func := 0xB#4, width := 4 }
  | .bleFar off => { mnemonic := "BLE", format := .x, opcode := 0xF#4, cond := 0xD#4, offset := off.toInt, imm := off, func := 0xB#4, width := 4 }
  | .bhiFar off => { mnemonic := "BHI", format := .x, opcode := 0xF#4, cond := 0xE#4, offset := off.toInt, imm := off, func := 0xB#4, width := 4 }
  | .blsFar off => { mnemonic := "BLS", format := .x, opcode := 0xF#4, cond := 0xF#4, offset := off.toInt, imm := off, func := 0xB#4, width := 4 }
  | .jFar off => { mnemonic := "J", format := .x, opcode := 0xF#4, offset := off.toInt, imm := off, func := 0xC#4, width := 4 }
  | .jmp addr => { mnemonic := "JMP", format := .x, opcode := 0xF#4, func := 0xD#4, imm := addr, width := 4 }
  | .call addr => { mnemonic := "CALL", format := .x, opcode := 0xF#4, func := 0xE#4, imm := addr, width := 4 }

/-- The mnemonic of an instruction, as spec/opcode_table.json spells it. -/
def Instr.mnemonic (i : Instr) : String := i.record.mnemonic

/-- The pseudo-instruction `RET`, which is `JR R1`, 0x9801 (R118, D28). -/
def Instr.ret : Instr := .jr 0x1#4

end Sys2Proof
end

