-- ==== Sys2Proof/Machine/Fetch.lean ====
section
/-! DEFINITION. Instruction fetch from memory (spec/20_memory.md R66, R79, spec/60_exceptions.md R313, R314). -/

namespace Sys2Proof.Machine

/-- The two bytes at an address as a word, modulo 2^16 (used only where both lie inside memory, and as the detail value
of an undefined opcode). -/
def Memory.wordAt (m : Memory) (a : Word) : Word := wordOfBytes (m.read a) (m.read (a + 1#16))

/-- `Fetch(pc)` (R66): the range of each word is checked before it is read, the second word's before any sub-opcode is
looked at (D27). Fetch does not wrap inside an instruction. -/
def fetch (m : Memory) (pc : Word) : Fetched :=
  if pc.toNat + 1 > 0xFFFF then .truncated
  else if !isExtended (m.wordAt pc) then .compact (m.wordAt pc)
  else if pc.toNat + 3 > 0xFFFF then .truncated
  else .extended (m.wordAt pc) (m.wordAt (pc + 2#16))

/-- Fetch, then decode (60_exceptions.md R319 lines 2 and 3). -/
def State.fetchDecode (s : State) : DecodeResult := decode (fetch s.mem s.pc)

/-- An instruction given as a number of `nbits` bits, stored at an address as the hardware stores it (R62). -/
def State.storeInstruction (s : State) (a : Word) (nbits w : Nat) : State :=
  { s with mem := s.mem.writeBytes a (tableBytes nbits w) }

end Sys2Proof.Machine
end

