-- ==== Sys2Proof/Machine/Step.lean ====
section
/-! DEFINITION. One step: the events of the boundary, then an interrupt entry or one instruction
(spec/60_exceptions.md R319, spec/70_reset_and_hazards.md R354). -/

namespace Sys2Proof.Machine

/-- The step of R319 on a state whose boundary events have been delivered. In a terminal run state there is none. -/
def stepAtBoundary (s : State) : Host.Outcome State Fault Refusal :=
  match s.run with
  | .halted => .fault .stepWhenHalted
  | .faulted kind addr => .fault (.stepWhenFaulted kind addr)
  | .running =>
    if s.acceptsInterrupt then interruptEntry s
    else
      match s.fetchDecode with
      | .ok i => exec i s
      | .undefinedOpcode => raise .undefinedOpcode (s.mem.wordAt s.pc) s
      | .truncatedFetch => raise .truncatedFetch s.pc s

/-- One round of the run loop (R354): the `irq` event of this boundary, if any, then the step. -/
def step (s : State) : Host.Outcome State Fault Refusal := stepAtBoundary s.deliver

/-- The state with an instruction of spec/opcode_table.json stored at `pc`, where the next step fetches (log 20). -/
def State.withFetchWord (s : State) (nbits w : Nat) : State := s.storeInstruction s.pc nbits w

end Sys2Proof.Machine
end

