-- ==== Sys2Proof/Machine/Assemble.lean ====
section
/-! DEFINITION. The form an assembler selects (spec/30_encoding.md R116, R117): software outside the block (00_scope.md
R4), kept because the decoder must invert it. Nothing of the machine calls it. -/

namespace Sys2Proof.Machine

/-- `ADDI rd, rs, imm` (R116): compact when source and destination agree and the immediate fits 8 signed bits.
DESIGN CHOICE (log 22): the spec gives no range for the 16-bit immediate of the extended form (R97, R136); the model accepts
-32768 to 65535, every integer that 16 bits hold under the signed or the unsigned reading, and answers `none` (a
RangeError) for the rest. -/
def chooseAddi (rd rs : Reg) (imm : Int) : Option Instr :=
  if rd = rs ∧ -128 ≤ imm ∧ imm ≤ 127 then some (.addi rd (BitVec.ofInt 8 imm))
  else if -32768 ≤ imm ∧ imm ≤ 65535 then some (.addiExt rd rs (BitVec.ofInt 16 imm))
  else none

/-- A load or store (R116): the compact form exactly when the displacement is 0. -/
def chooseForm (compact : Reg → Reg → Instr) (extended : Reg → Reg → Word → Instr) (rd rs : Reg) (disp : Word) : Instr :=
  if disp = 0x0000#16 then compact rd rs else extended rd rs disp

/-- The byte difference from `next`, where the following instruction would stand, to the target, over the integers (R117,
00_scope.md R10). -/
def byteDelta (next : Nat) (target : Word) : Int := (target.toNat : Int) - next

/-- A word offset that fits between two bounds; an odd difference has none (R117). -/
def fittingOffset (delta lo hi : Int) : Option Int :=
  if delta % 2 = 0 ∧ lo ≤ delta / 2 ∧ delta / 2 ≤ hi then some (delta / 2) else none

/-- The word offset of a compact form assembled at `pc`: R116 writes `target - (pc + 2)` without a modulus, so `pc + 2` does
not wrap here (log 23). -/
def compactOffset (pc target : Word) (lo hi : Int) : Option Int := fittingOffset (byteDelta (pc.toNat + 2) target) lo hi

/-- The word offset of a far form assembled at `pc`: R119 takes the difference of two addresses, `next` being reduced by
00_scope.md R11, and gives the range -32767 to 32767 (log 23). -/
def farOffset (pc target : Word) : Option Int := fittingOffset (byteDelta (pc + 4#16).toNat target) (-32767) 32767

/-- `Bcc target` (R116): compact where the offset fits, else far, else the RangeError of R117. -/
def chooseBranch (c : Cond) (pc target : Word) : Option Instr :=
  match compactOffset pc target (-128) 127 with
  | some o => some (compactBranch c (BitVec.ofInt 8 o))
  | none => (farOffset pc target).map fun o => farBranch c (BitVec.ofInt 16 o)

/-- `J target` (R116): compact for offsets −2016 to 2047, else far, else the RangeError of R117. -/
def chooseJump (pc target : Word) : Option Instr :=
  match compactOffset pc target (-2016) 2047 with
  | some o => some (.j (BitVec.ofInt 12 o))
  | none => (farOffset pc target).map fun o => .jFar (BitVec.ofInt 16 o)

end Sys2Proof.Machine
end

