-- ==== Sys2Proof/Machine/Boot.lean ====
section
/-! DEFINITION. Reset as a transaction and the loading of an image (spec/70_reset_and_hazards.md R350, R351). -/

namespace Sys2Proof.Machine

/-- `reset(BASE)` applied in any run state (R350): the port devices and what the environment already received are not
touched. -/
def State.resetKeepingEnv (s : State) (base : Word) (mem : Memory) : State :=
  { State.resetAt base mem with env := s.env }

/-- The start of a run (R351): the image placed at `base` over the memory contents `mem`, or nothing where it would
extend past 0xFFFF. -/
def bootImage (base : Word) (mem : Memory) (image : List Byte) : Option State :=
  if base.toNat + image.length > 0x10000 then none
  else some (State.resetAt base (mem.writeBytes base image))

end Sys2Proof.Machine
end

