-- ==== Sys2Proof/Safety.lean ====
section
/-! DEFINITION. What counts as a good state and a safe run, in the terms the statements use. -/

namespace Sys2Proof.Machine

/-- The state invariant: memory is in canonical form, the hard-wired register holds zero, and a faulted machine's `pc` is
still at the faulting instruction (log 5, 10_state.md R21, 60_exceptions.md R312). -/
def State.Inv (s : State) : Prop :=
  s.mem.wf ∧ s.phys (.primary 0#4) = 0x0000#16 ∧ ∀ kind addr, s.run = .faulted kind addr → s.pc = addr

/-- No step exists any more (10_state.md R39). -/
def State.terminal (s : State) : Prop := s.run ≠ .running

/-- `t` follows from `s` in some number of steps. -/
inductive Reachable (s : State) : State → Prop where
  | here : Reachable s s
  | step {t u : State} : Reachable s t → step t = .next u → Reachable s u

/-- No machine fault occurs in any run from `s`. -/
def NeverFaults (s : State) : Prop := ∀ t, Reachable s t → ∀ kind addr, t.run ≠ .faulted kind addr

end Sys2Proof.Machine
end

