-- ==== Sys2Proof/Certificates/Slice0/Obligations.lean ====
section
/-! DEFINITION. The statements for the provers, after the vocabulary they are written in. -/

namespace Sys2Proof.Spec

open Sys2Proof.Machine

/-! ## Vocabulary: words -/

/-- A word written out as four nibbles, `w0[15:12]` first (30_encoding.md R91). -/
def word4 (op a b c : Nibble) : Word := op ++ a ++ b ++ c

/-- A word written out as two nibbles and a byte (R91, formats I and B). -/
def word3 (op a : Nibble) (imm : BitVec 8) : Word := op ++ a ++ imm

/-- `w` is the compact encoding of `i`, in both directions, and announces no second word (R90). -/
def Compact (w : Word) (i : Instr) : Prop :=
  encode i = [w] ∧ isExtended w = false ∧ decode (.compact w) = .ok i

/-- `w0 w1` is the extended encoding of `i`, in both directions; fetching it at 0xFFFD or above is truncated (R90,
20_memory.md R66). -/
def Extended (w0 w1 : Word) (i : Instr) : Prop :=
  encode i = [w0, w1] ∧ isExtended w0 = true ∧ decode (.extended w0 w1) = .ok i ∧
  ∀ (m : Memory) (pc : Word), 0xFFFD ≤ pc.toNat → m.wordAt pc = w0 → fetch m pc = .truncated

/-- With any other value than zero in this field the compact word is undefined (R109). -/
def FieldMustBeZero (w : Nibble → Word) : Prop := ∀ a, a ≠ 0#4 → decode (.compact (w a)) = .undefinedOpcode

/-- The same for two fields. -/
def FieldsMustBeZero (w : Nibble → Nibble → Word) : Prop :=
  ∀ a b, (a ≠ 0#4 ∨ b ≠ 0#4) → decode (.compact (w a b)) = .undefinedOpcode

/-- The same for one field of an extended first word. -/
def ExtFieldMustBeZero (w0 : Nibble → Word) : Prop :=
  ∀ a w1, a ≠ 0#4 → decode (.extended (w0 a) w1) = .undefinedOpcode

/-- The same for two fields of an extended first word. -/
def ExtFieldsMustBeZero (w0 : Nibble → Nibble → Word) : Prop :=
  ∀ a b w1, (a ≠ 0#4 ∨ b ≠ 0#4) → decode (.extended (w0 a b) w1) = .undefinedOpcode

/-! ## Vocabulary: what a step leaves alone -/

/-- What register index `i` reads after `x[i] <- v`: a write to index 0 is discarded (10_state.md R21, R23, R24). -/
def written (i : Reg) (v : Word) : Word := if i = 0#4 then 0x0000#16 else v

/-- Every byte of memory outside the listed addresses reads as before. -/
def OtherBytes (s t : State) (touched : List Word) : Prop := ∀ a, a ∉ touched → t.mem.read a = s.mem.read a

/-- Every physical register of both banks, but those the listed indices name, holds what it held. -/
def OtherRegisters (s t : State) (indices : List Reg) : Prop :=
  ∀ p, (∀ i ∈ indices, i ≠ 0#4 → p ≠ physOf s.alt i) → t.phys p = s.phys p

/-- The bank selector, `IV`, `IE`, `IP`, `RUN` and the environment's side are as before. -/
def SameControl (s t : State) : Prop :=
  t.alt = s.alt ∧ t.iv = s.iv ∧ t.ie = s.ie ∧ t.ip = s.ip ∧ t.run = s.run ∧ t.env = s.env

/-- `i` completes: `rd` receives `v`, the flags become `f`, `pc` advances, and nothing else changes. -/
def Computes (i : Instr) (width : Word) (rd : Reg) (v : Word) (f : Flags) (s : State) : Prop :=
  ∃ t, exec i s = .next t ∧ t.x rd = written rd v ∧ t.flags = f ∧ t.pc = s.pc + width ∧
    OtherRegisters s t [rd] ∧ OtherBytes s t [] ∧ SameControl s t

/-- `i` completes: the flags become `f`, `pc` becomes `target`, no register, byte or other state changes. -/
def OnlyFlagsAndPc (i : Instr) (f : Flags) (target : Word) (s : State) : Prop :=
  ∃ t, exec i s = .next t ∧ t.flags = f ∧ t.pc = target ∧
    OtherRegisters s t [] ∧ OtherBytes s t [] ∧ SameControl s t

/-- `i` completes as a call: `x[1]` receives the link, `pc` becomes `target`, nothing else changes. -/
def Links (i : Instr) (link target : Word) (s : State) : Prop :=
  ∃ t, exec i s = .next t ∧ t.x 1#4 = link ∧ t.pc = target ∧ t.flags = s.flags ∧
    OtherRegisters s t [1#4] ∧ OtherBytes s t [] ∧ SameControl s t

/-- `i` completes as a store of one byte at `ea`: only that byte and `pc` change. -/
def StoresByte (i : Instr) (width ea : Word) (b : Byte) (s : State) : Prop :=
  ∃ t, exec i s = .next t ∧ t.mem.read ea = b ∧ OtherBytes s t [ea] ∧ t.flags = s.flags ∧
    t.pc = s.pc + width ∧ OtherRegisters s t [] ∧ SameControl s t

/-- `i` completes as a store of one word at `ea`, low byte first: only those two bytes and `pc` change. -/
def StoresWord (i : Instr) (width ea v : Word) (s : State) : Prop :=
  ∃ t, exec i s = .next t ∧ t.mem.read ea = v.extractLsb' 0 8 ∧ t.mem.read (ea + 1#16) = v.extractLsb' 8 8 ∧
    OtherBytes s t [ea, ea + 1#16] ∧ t.flags = s.flags ∧ t.pc = s.pc + width ∧
    OtherRegisters s t [] ∧ SameControl s t

/-- A shift: its encoding, the result and the flags with the bit that left in `C` (R35, 41_shift_muldiv.md). -/
def Shifts (func : Nibble) (i : Reg → Reg → Instr) (rd rs : Reg) (r : Word) (cout : Bool) (s : State) : Prop :=
  Compact (word4 0xA#4 rd rs func) (i rd rs) ∧ Computes (i rd rs) 2#16 rd r (shiftFlags r cout s.flags) s

/-- The state with the fault reported and nothing else of the step kept (60_exceptions.md R312). -/
def faultedState (kind : FaultKind) (info : Word) (s : State) : State :=
  { s with run := .faulted kind s.pc
           env := { s.env with outputs := s.env.outputs ++ [.fault kind s.pc info] } }

/-- `i` raises this fault. -/
def Faults (i : Instr) (kind : FaultKind) (info : Word) (s : State) : Prop :=
  exec i s = .next (faultedState kind info s)

/-- The coming step executes the instruction at `pc`: the machine runs and no interrupt is accepted at this boundary. -/
def ReadyToFetch (s : State) : Prop := s.run = .running ∧ ¬ (s.deliver.ip = true ∧ s.deliver.ie = true)

/-- The coming step is an interrupt entry. -/
def ReadyToAccept (s : State) : Prop := s.run = .running ∧ s.deliver.ip = true ∧ s.deliver.ie = true

/-- The bytes of `i` stand in memory at `pc`, all of them below 0x10000. -/
def HoldsAtPc (s : State) (i : Instr) : Prop :=
  s.pc.toNat + (encodeBytes i).length ≤ 0x10000 ∧
  ∀ (k : Nat) (b : Byte), (encodeBytes i)[k]? = some b → s.mem.read (s.pc + BitVec.ofNat 16 k) = b

/-- The word of memory at an address, low byte first. -/
def wordIn (s : State) (a : Word) : Word := s.mem.read (a + 1#16) ++ s.mem.read a

/-! ## Vocabulary: causes and effects by instruction -/

/-- The fault an instruction raises, with its detail value, where it raises one (60_exceptions.md R310, R315 to R317). -/
def causeOf (i : Instr) (s : State) : Option (FaultKind × Word) :=
  match i with
  | .lw _ rs | .sw _ rs => if s.x rs = 0xFFFF#16 then some (.memOutOfRange, 0xFFFF#16) else none
  | .lwExt _ rs d | .swExt _ rs d => if s.x rs + d = 0xFFFF#16 then some (.memOutOfRange, 0xFFFF#16) else none
  | .push _ | .swi => if s.x 2#4 = 0x0001#16 then some (.memOutOfRange, 0xFFFF#16) else none
  | .pop _ | .reti => if s.x 2#4 = 0xFFFF#16 then some (.memOutOfRange, 0xFFFF#16) else none
  | .inPort _ rs => if 255 < (s.x rs).toNat then some (.portOutOfRange, s.x rs) else none
  | .outPort rd _ => if 255 < (s.x rd).toNat then some (.portOutOfRange, s.x rd) else none
  | .div _ rs | .divu _ rs | .rem _ rs | .remu _ rs => if s.x rs = 0#16 then some (.divideByZero, s.pc) else none
  | _ => none

/-- The flags an instruction may write, as a mask (10_state.md R36). -/
def flagsWritten (i : Instr) : Flags :=
  match i with
  | .add _ _ _ | .addi _ _ | .addiExt _ _ _ | .adc _ _ | .sub _ _ _ | .sbc _ _ | .cmp _ _ | .cmpi _ _ | .neg _ _
  | .setf _ => { n := true, z := true, c := true, v := true, h := true }
  | .and _ _ _ | .or _ _ _ | .xor _ _ _ | .not _ _ | .tst _ _ | .andi _ _ _ | .ori _ _ _ | .xori _ _ _
  | .sll _ _ | .srl _ _ | .sra _ _ | .rol _ _ | .ror _ _ | .rcl _ _ | .rcr _ _ =>
    { n := true, z := true, c := true, v := true, h := false }
  | .ldi | .ldd | .ldir | .lddr | .fill => { n := false, z := true, c := false, v := false, h := false }
  | .cpir => { n := false, z := true, c := true, v := false, h := false }
  | _ => { n := false, z := false, c := false, v := false, h := false }

/-- The instructions that may write memory (20_memory.md R61). -/
def mayStore (i : Instr) : Bool :=
  match i with
  | .sw _ _ | .sb _ _ | .swExt _ _ _ | .sbExt _ _ _ | .push _ | .swi | .ldi | .ldd | .ldir | .lddr | .fill => true
  | _ => false

/-- The instructions that reach the port space (R61). -/
def usesPort (i : Instr) : Bool :=
  match i with
  | .inPort _ _ | .outPort _ _ => true
  | _ => false

/-- The state with the half-carry flag replaced. -/
def withH (s : State) (h : Bool) : State := { s with flags := { s.flags with h := h } }

/-- The compact words R110 marks undefined (30_encoding.md R109, R112). -/
def undefinedCompact (w : Word) : Prop :=
  let op := w.extractLsb' 12 4
  let a := w.extractLsb' 8 4
  let b := w.extractLsb' 4 4
  let c := w.extractLsb' 0 4
  (op = 0x6#4 ∧ 3 ≤ c.toNat) ∨ (op = 0x7#4 ∧ 2 ≤ c.toNat) ∨ (op = 0xA#4 ∧ 9 ≤ c.toNat) ∨
  (op = 0xB#4 ∧ 7 ≤ c.toNat) ∨ (op = 0xD#4 ∧ 2 ≤ c.toNat) ∨
  (op = 0xC#4 ∧ ((c = 0x7#4 ∧ a ≠ 0#4) ∨ (c = 0x8#4 ∧ b ≠ 0#4) ∨ (9 ≤ c.toNat ∧ (a ≠ 0#4 ∨ b ≠ 0#4)))) ∨
  (op = 0xE#4 ∧ (10 ≤ c.toNat ∨ (c.toNat ≤ 5 ∧ (a ≠ 0#4 ∨ b ≠ 0#4)) ∨
    ((c = 0x6#4 ∨ c = 0x8#4) ∧ b ≠ 0#4) ∨ ((c = 0x7#4 ∨ c = 0x9#4) ∧ a ≠ 0#4)))

/-- The extended first words R110 marks undefined. -/
def undefinedExtended (w0 : Word) : Prop :=
  let a := w0.extractLsb' 8 4
  let b := w0.extractLsb' 4 4
  let c := w0.extractLsb' 0 4
  c = 0xF#4 ∨ ((c = 0x4#4 ∨ c = 0x5#4 ∨ c = 0xB#4) ∧ b ≠ 0#4) ∨
  ((c = 0xC#4 ∨ c = 0xD#4 ∨ c = 0xE#4) ∧ (a ≠ 0#4 ∨ b ≠ 0#4))

/-- `IV` after an instruction that raises no fault (10_state.md R37). -/
def ivAfter (i : Instr) (s : State) : Word :=
  match i with
  | .setiv rs => s.x rs
  | _ => s.iv

/-- `IE` after an instruction that raises no fault (R37). -/
def ieAfter (i : Instr) (s : State) : Bool :=
  match i with
  | .ei | .reti => true
  | .di | .swi => false
  | _ => s.ie

/-! ## Vocabulary: branches -/

/-- A relative target, `base` bytes and `off` words from an address, modulo 2^16 (R95 to R97). -/
def target (pc : Word) (width off : Int) : Word := BitVec.ofInt 16 (pc.toNat + width + 2 * off)

/-- The instruction goes to `there` when `taken`, to `next` when not; it changes `pc` only. -/
def GoesIf (i : Instr) (s : State) (taken : Prop) (there next : Word) : Prop :=
  (taken → OnlyFlagsAndPc i s.flags there s) ∧ (¬ taken → OnlyFlagsAndPc i s.flags next s)

/-- One condition: both forms with their words, and when they are taken (42_control.md R200, R201). -/
def Condition (code : Nibble) (compact : BitVec 8 → Instr) (far : Word → Instr) (taken : Flags → Prop) : Prop :=
  ∀ (s : State) (off : BitVec 8) (offFar : Word),
    Compact (word3 0x8#4 code off) (compact off) ∧
    GoesIf (compact off) s (taken s.flags) (target s.pc 2 off.toInt) (s.pc + 2#16) ∧
    Extended (word4 0xF#4 code 0x0#4 0xB#4) offFar (far offFar) ∧
    ExtFieldMustBeZero (fun b => word4 0xF#4 code b 0xB#4) ∧
    GoesIf (far offFar) s (taken s.flags) (target s.pc 4 offFar.toInt) (s.pc + 4#16)

/-- After `CMP a, b` the compact and the far form are taken exactly when `rel a b`. -/
def AfterCompare (compact : BitVec 8 → Instr) (far : Word → Instr) (rel : Word → Word → Prop) : Prop :=
  ∀ (s : State) (ra rb : Reg) (off : BitVec 8) (offFar : Word), ∃ t, exec (.cmp ra rb) s = .next t ∧
    GoesIf (compact off) t (rel (s.x ra) (s.x rb)) (target t.pc 2 off.toInt) (t.pc + 2#16) ∧
    GoesIf (far offFar) t (rel (s.x ra) (s.x rb)) (target t.pc 4 offFar.toInt) (t.pc + 4#16)

/-! ## Vocabulary: blocks -/

/-- The contents of memory after `n` bytes are copied one at a time, both pointers moving by `dir` (44_block.md R262). -/
def copied (dir : Word) : Nat → Word → Word → (Word → Byte) → Word → Byte
  | 0, _, _, m => m
  | n + 1, src, dst, m => copied dir n (src + dir) (dst + dir) (Function.update m dst (m src))

/-- The `n` addresses from `a` on, moving by `dir`. -/
def addresses (dir : Word) : Nat → Word → List Word
  | 0, _ => []
  | n + 1, a => a :: addresses dir n (a + dir)

/-- Executing one instruction `n` times, from wherever the machine is. -/
def times (i : Instr) : Nat → State → Result
  | 0, s => .next s
  | n + 1, s => match exec i s with
    | .next t => times i n t
    | .fault r => .fault r
    | .refused r => .refused r

/-- A single copied byte: entry count not zero (R263, R264). -/
def CopiesOne (i : Instr) (dir : Word) (s : State) : Prop :=
  ∃ t, exec i s = .next t ∧ t.mem.read (s.x 6#4) = s.mem.read (s.x 5#4) ∧ OtherBytes s t [s.x 6#4] ∧
    t.x 4#4 = s.x 4#4 - 1#16 ∧ t.x 5#4 = s.x 5#4 + dir ∧ t.x 6#4 = s.x 6#4 + dir ∧
    t.flags = { s.flags with z := decide (s.x 4#4 - 1#16 = 0#16) } ∧ t.pc = s.pc + 2#16 ∧
    OtherRegisters s t [4#4, 5#4, 6#4] ∧ SameControl s t

/-- A whole copied block (R265, R266). -/
def CopiesBlock (i : Instr) (dir : Word) (s : State) : Prop :=
  ∃ t, exec i s = .next t ∧
    (∀ a, t.mem.read a = copied dir (s.x 4#4).toNat (s.x 5#4) (s.x 6#4) s.mem.read a) ∧
    OtherBytes s t (addresses dir (s.x 4#4).toNat (s.x 6#4)) ∧
    t.x 4#4 = 0x0000#16 ∧ t.x 5#4 = s.x 5#4 + s.x 4#4 * dir ∧ t.x 6#4 = s.x 6#4 + s.x 4#4 * dir ∧
    t.flags = { s.flags with z := true } ∧ t.pc = s.pc + 2#16 ∧
    OtherRegisters s t [4#4, 5#4, 6#4] ∧ SameControl s t

end Sys2Proof.Spec

section

open Sys2Proof Sys2Proof.Machine Sys2Proof.Spec

/-- A step runs the decoded instruction; a boundary delivers the next entry of the event list (the model's choice, log
8) (R319, R354, R38). -/
def Obligations.StepRunsDecodedInstruction : Prop :=
  ∀ (s : State) (i : Instr), ReadyToFetch s → s.fetchDecode = .ok i →
    step s = exec i s.deliver ∧
    s.deliver = { s with ip := s.ip || s.env.irqs.headD false, env := { s.env with irqs := s.env.irqs.tail } }

/-- A step is an interrupt entry, or fetch, decode and execute, in that order; none in a terminal state (R319). -/
def Obligations.StepOrderOfEvents : Prop :=
  ∀ s : State,
    (s.run ≠ .running → ∃ f, step s = .fault f) ∧
    (ReadyToAccept s → step s = interruptEntry s.deliver) ∧
    (ReadyToFetch s →
      (fetch s.mem s.pc = .truncated → step s = .next (faultedState .truncatedFetch s.pc s.deliver)) ∧
      (∀ w0, fetch s.mem s.pc = .compact w0 → decode (.compact w0) = .undefinedOpcode →
        step s = .next (faultedState .undefinedOpcode w0 s.deliver)) ∧
      (∀ w0 w1, fetch s.mem s.pc = .extended w0 w1 → decode (.extended w0 w1) = .undefinedOpcode →
        step s = .next (faultedState .undefinedOpcode w0 s.deliver)) ∧
      (∀ i, decode (fetch s.mem s.pc) = .ok i → step s = exec i s.deliver))

/-- The bytes of any well-formed instruction, standing at pc, make the step execute that instruction (R62, R66, R110,
R319). -/
def Obligations.EncodedInstructionRuns : Prop :=
  ∀ (s : State) (i : Instr), i.wellFormed = true → HoldsAtPc s i → ReadyToFetch s → step s = exec i s.deliver

/-- A fetch that needs a byte past 0xFFFF faults; the sequential advance wraps (R314). -/
def Obligations.FetchBeyondMemoryFaults : Prop :=
  ∀ s : State, ReadyToFetch s →
    ((s.pc = 0xFFFF#16 ∨ (0xFFFD ≤ s.pc.toNat ∧ (wordIn s s.pc).extractLsb' 12 4 = 0xF#4)) →
      step s = .next (faultedState .truncatedFetch s.pc s.deliver)) ∧
    (∀ i, i.wellFormed = true → i.width = 2 → s.pc = 0xFFFE#16 → HoldsAtPc s i → step s = exec i s.deliver) ∧
    (∀ i, i.wellFormed = true → i.width = 4 → s.pc = 0xFFFC#16 → HoldsAtPc s i → step s = exec i s.deliver) ∧
    (s.pc = 0xFFFE#16 → HoldsAtPc s .nop → ∃ t, step s = .next t ∧ t.pc = 0x0000#16) ∧
    (∀ rd v, s.pc = 0xFFFC#16 → HoldsAtPc s (.li rd v) →
      ∃ t, step s = .next t ∧ t.pc = 0x0000#16 ∧ t.x rd = written rd v)

/-- Exactly the words the decoder's rule marks undefined are undefined, and a step that fetches one faults (R109,
R112, R313). -/
def Obligations.UndefinedEncodingsFault : Prop :=
  (∀ w, isExtended w = false →
    (undefinedCompact w → decode (.compact w) = .undefinedOpcode) ∧
    (¬ undefinedCompact w → ∃ i, decode (.compact w) = .ok i)) ∧
  (∀ w0 w1, isExtended w0 = true →
    (undefinedExtended w0 → decode (.extended w0 w1) = .undefinedOpcode) ∧
    (¬ undefinedExtended w0 → ∃ i, decode (.extended w0 w1) = .ok i)) ∧
  (∀ s : State, ReadyToFetch s →
    (∀ w0, fetch s.mem s.pc = .compact w0 → undefinedCompact w0 →
      step s = .next (faultedState .undefinedOpcode w0 s.deliver)) ∧
    (∀ w0 w1, fetch s.mem s.pc = .extended w0 w1 → undefinedExtended w0 →
      step s = .next (faultedState .undefinedOpcode w0 s.deliver)))

/-- Whatever step raises a fault, the state after it is the state before it plus RUN and the report (R312). -/
def Obligations.FaultCommitsNothing : Prop :=
  ∀ (s t : State) (kind : FaultKind) (addr : Word),
    s.run = .running → step s = .next t → t.run = .faulted kind addr →
    ∃ info, t = faultedState kind info s.deliver ∧ addr = s.pc ∧ step t = .fault (.stepWhenFaulted kind addr) ∧
      (kind = .undefinedOpcode → info = wordIn s s.pc) ∧ (kind = .truncatedFetch → info = s.pc) ∧
      (kind = .memOutOfRange → info = 0xFFFF#16) ∧ (kind = .portOutOfRange → 255 < info.toNat) ∧
      (kind = .divideByZero → info = s.pc)

/-- Each instruction faults exactly on its listed causes and on every other state completes (R315, R316, R317). -/
def Obligations.ExecFaultsExactlyWhenCaused : Prop :=
  (∀ (i : Instr) (s : State),
    (∀ kind info, causeOf i s = some (kind, info) → Faults i kind info s) ∧
    (causeOf i s = none → ∃ t, exec i s = .next t ∧ t.run = if i = .halt then .halted else s.run)) ∧
  (∀ s : State, ReadyToAccept s → s.x 2#4 = 0x0001#16 →
    step s = .next (faultedState .memOutOfRange 0xFFFF#16 s.deliver))

/-- Interrupt entry pushes pc, clears IE and IP, sets pc to IV, and changes nothing else (R320). -/
def Obligations.InterruptEntrySavesAndVectors : Prop :=
  ∀ s : State, ReadyToAccept s →
    (s.x 2#4 ≠ 0x0001#16 → ∃ t, step s = .next t ∧
      t.mem.read (s.x 2#4 - 2#16) = s.pc.extractLsb' 0 8 ∧ t.mem.read (s.x 2#4 - 1#16) = s.pc.extractLsb' 8 8 ∧
      OtherBytes s t [s.x 2#4 - 2#16, s.x 2#4 - 1#16] ∧
      t.x 2#4 = s.x 2#4 - 2#16 ∧ OtherRegisters s t [2#4] ∧
      t.ie = false ∧ t.ip = false ∧ t.pc = s.iv ∧ t.iv = s.iv ∧ t.flags = s.flags ∧ t.alt = s.alt ∧
      t.run = .running ∧ t.env = s.deliver.env) ∧
    (s.x 2#4 = 0x0001#16 → ∃ t, step s = .next t ∧ t = faultedState .memOutOfRange 0xFFFF#16 s.deliver ∧
      t.pc = s.pc ∧ t.ie = true ∧ t.ip = true)

/-- An irq event sets IP whatever IE is; only interrupt acceptance clears it; a boundary takes one list entry (the
model's choice, log 8) (R38, R354). -/
def Obligations.PendingLatchClearedOnlyByAcceptance : Prop :=
  (∀ s : State, s.irq = { s with ip := true } ∧ s.irq.irq = s.irq) ∧
  (∀ (s : State) (b : Bool) (rest : List Bool), s.env.irqs = b :: rest →
    s.deliver.ip = (s.ip || b) ∧ s.deliver.env.irqs = rest) ∧
  (∀ (i : Instr) (s t : State), exec i s = .next t → t.ip = s.ip) ∧
  (∀ s t : State, step s = .next t →
    (ReadyToFetch s → t.ip = s.deliver.ip) ∧
    (ReadyToAccept s → t.run = .running → t.ip = false) ∧
    (ReadyToAccept s → t.run ≠ .running → t.ip = true))

/-- Halted and Faulted have no step and only reset leaves them (R39). -/
def Obligations.TerminalStatesHaveNoStep : Prop :=
  (∀ s : State, s.run = .halted → step s = .fault .stepWhenHalted) ∧
  (∀ (s : State) (kind : FaultKind) (addr : Word), s.run = .faulted kind addr →
    step s = .fault (.stepWhenFaulted kind addr)) ∧
  (∀ s : State, exec .halt s = .next { s with run := .halted }) ∧
  (∀ (kind : FaultKind) (info : Word) (s : State), raise kind info s = .next (faultedState kind info s)) ∧
  (∀ (s : State) (base : Word) (mem : Memory), (s.resetKeepingEnv base mem).run = .running) ∧
  (∀ s : State, s.irq = { s with ip := true })

/-- SWI pushes pc + 2 and enters IV whatever IE is; RETI pops pc and sets IE (R322, R325). -/
def Obligations.SoftwareInterruptAndReturn : Prop :=
  ∀ s : State,
    Compact 0xE004#16 .swi ∧ FieldsMustBeZero (fun a b => word4 0xE#4 a b 0x4#4) ∧
    Compact 0xE005#16 .reti ∧ FieldsMustBeZero (fun a b => word4 0xE#4 a b 0x5#4) ∧
    (s.x 2#4 ≠ 0x0001#16 → ∃ t, exec .swi s = .next t ∧
      t.mem.read (s.x 2#4 - 2#16) = (s.pc + 2#16).extractLsb' 0 8 ∧
      t.mem.read (s.x 2#4 - 1#16) = (s.pc + 2#16).extractLsb' 8 8 ∧
      OtherBytes s t [s.x 2#4 - 2#16, s.x 2#4 - 1#16] ∧
      t.x 2#4 = s.x 2#4 - 2#16 ∧ OtherRegisters s t [2#4] ∧ t.ie = false ∧ t.pc = s.iv ∧ t.ip = s.ip ∧
      t.iv = s.iv ∧ t.flags = s.flags ∧ t.alt = s.alt ∧ t.run = s.run ∧ t.env = s.env) ∧
    (s.x 2#4 = 0x0001#16 → Faults .swi .memOutOfRange 0xFFFF#16 s) ∧
    (s.x 2#4 ≠ 0xFFFF#16 → ∃ t, exec .reti s = .next t ∧ t.pc = wordIn s (s.x 2#4) ∧ t.ie = true ∧
      t.x 2#4 = s.x 2#4 + 2#16 ∧ OtherRegisters s t [2#4] ∧ OtherBytes s t [] ∧ t.ip = s.ip ∧
      t.iv = s.iv ∧ t.flags = s.flags ∧ t.alt = s.alt ∧ t.run = s.run ∧ t.env = s.env) ∧
    (s.x 2#4 = 0xFFFF#16 → Faults .reti .memOutOfRange 0xFFFF#16 s)

/-- RETI at the end of a handler resumes at the saved address with the stack pointer as before the entry (R320, R322,
R323, R325). -/
def Obligations.HandlerReturnResumes : Prop :=
  ∀ (s t h : State) (ret : Word), s.x 2#4 ≠ 0x0001#16 →
    ((ReadyToAccept s ∧ step s = .next t ∧ ret = s.pc) ∨ (exec .swi s = .next t ∧ ret = s.pc + 2#16)) →
    h.x 2#4 = t.x 2#4 → h.mem.read (t.x 2#4) = t.mem.read (t.x 2#4) →
    h.mem.read (t.x 2#4 + 1#16) = t.mem.read (t.x 2#4 + 1#16) →
    ∃ v, exec .reti h = .next v ∧ v.pc = ret ∧ v.x 2#4 = s.x 2#4 ∧ v.ie = true ∧ v.flags = h.flags ∧
      v.alt = h.alt ∧ v.iv = h.iv ∧ v.ip = h.ip ∧ v.run = h.run ∧ v.env = h.env ∧
      OtherRegisters h v [2#4] ∧ OtherBytes h v []

/-- EI and RETI let a pending interrupt in at the very next boundary; DI keeps it out (R292, R293, R325, R319). -/
def Obligations.EnableTakesEffectAtOnce : Prop :=
  ∀ s t : State, s.run = .running →
    (exec .ei s = .next t → t.deliver.ip = true → step t = interruptEntry t.deliver) ∧
    (exec .reti s = .next t → t.run = .running → t.deliver.ip = true → step t = interruptEntry t.deliver) ∧
    (exec .di s = .next t → ReadyToFetch t ∧ t.ip = s.ip)

/-- Every step keeps the invariant: canonical memory, zero in R[0], pc at the faulting instruction (R21, R60, R312).
-/
def Obligations.StepKeepsInvariant : Prop :=
  ∀ s t : State, s.Inv → step s = .next t → t.Inv

/-- The state after reset meets the invariant, at every base and over every canonical memory (R21, R42, R60). -/
def Obligations.ResetMeetsInvariant : Prop :=
  State.reset.Inv ∧ ∀ (base : Word) (mem : Memory), mem.wf → (State.resetAt base mem).Inv

/-- Reset from any state gives the spec's reset values (its zeros are its decision D21, log 3) (R42, R350, R6). -/
def Obligations.ResetValues : Prop :=
  (∀ (s : State) (base : Word) (mem : Memory),
    (s.resetKeepingEnv base mem).pc = base ∧ (∀ p, (s.resetKeepingEnv base mem).phys p = 0x0000#16) ∧
    (∀ i, (s.resetKeepingEnv base mem).x i = 0x0000#16) ∧ (s.resetKeepingEnv base mem).alt = false ∧
    (s.resetKeepingEnv base mem).flags = { n := false, z := false, c := false, v := false, h := false } ∧
    (s.resetKeepingEnv base mem).iv = 0x0000#16 ∧ (s.resetKeepingEnv base mem).ie = false ∧
    (s.resetKeepingEnv base mem).ip = false ∧ (s.resetKeepingEnv base mem).run = .running ∧
    (s.resetKeepingEnv base mem).mem = mem ∧ (s.resetKeepingEnv base mem).env = s.env) ∧
  State.reset = State.resetAt 0x0100#16 [] ∧ ∀ a, State.reset.mem.read a = 0x00#8

/-- The image's byte k stands at BASE + k; an image past 0xFFFF is refused (R351). -/
def Obligations.ImageLoad : Prop :=
  (∀ (base : Word) (mem : Memory) (image : List Byte),
    (bootImage base mem image = none ↔ 0x10000 < base.toNat + image.length) ∧
    ∀ s, bootImage base mem image = some s →
      s = { State.resetAt base mem with mem := s.mem } ∧
      (∀ (k : Nat) (b : Byte), image[k]? = some b → s.mem.read (base + BitVec.ofNat 16 k) = b) ∧
      (∀ a, (∀ k, k < image.length → a ≠ base + BitVec.ofNat 16 k) → s.mem.read a = mem.read a)) ∧
  (∀ base : Word, base ≠ 0xFFFF#16 →
    ∃ s, bootImage base [] [] = some s ∧ s.pc = base ∧ s.fetchDecode = .ok (.add 0#4 0#4 0#4))

/-- Two memories in canonical form that read the same everywhere are the same data (the model's representation, log 5)
(R60). -/
def Obligations.CanonicalMemoryDeterminedByReads : Prop :=
  ∀ m m' : Memory, m.wf → m'.wf → (∀ a, m.read a = m'.read a) → m = m'

/-- x[i] reads and writes R[i], or S[i - 4] for indices 4 to 11 under ALT; index 0 reads zero and drops writes (R23,
R24). -/
def Obligations.RegisterReadAndWrite : Prop :=
  ∀ (s : State) (i : Reg) (v : Word),
    (i = 0#4 → s.x i = 0x0000#16 ∧ s.setX i v = s) ∧
    (s.alt = true → 4 ≤ i.toNat → i.toNat ≤ 11 →
      s.sh[i.toNat - 4]? = some (s.x i) ∧ s.setX i v = { s with sh := s.sh.setIfInBounds (i.toNat - 4) v }) ∧
    (i ≠ 0#4 → ¬ (s.alt = true ∧ 4 ≤ i.toNat ∧ i.toNat ≤ 11) →
      s.r[i.toNat]? = some (s.x i) ∧ s.setX i v = { s with r := s.r.setIfInBounds i.toNat v }) ∧
    (s.setX i v).x i = written i v ∧ (∀ j, j ≠ i → (s.setX i v).x j = s.x j) ∧
    (∀ k : Reg, s.r[k.toNat]? = some (s.phys (.primary k))) ∧
    (∀ k : BitVec 3, s.sh[k.toNat]? = some (s.phys (.shadow k)))

/-- Byte and word accesses: read after write, little-endian, out of range only for a word at 0xFFFF (R62, R63, R64,
R65). -/
def Obligations.MemoryReadAndWrite : Prop :=
  ∀ (m : Memory) (a : Word),
    (∀ b : Byte, (m.write a b).read a = b ∧ (∀ c, c ≠ a → (m.write a b).read c = m.read c) ∧
      (m.wf → (m.write a b).wf)) ∧
    (m.readWord a = none ↔ a = 0xFFFF#16) ∧
    (a ≠ 0xFFFF#16 → m.readWord a = some (m.read (a + 1#16) ++ m.read a)) ∧
    (∀ v : Word, (m.writeWord a v = none ↔ a = 0xFFFF#16) ∧
      ∀ m', m.writeWord a v = some m' →
        m'.read a = v.extractLsb' 0 8 ∧ m'.read (a + 1#16) = v.extractLsb' 8 8 ∧ m'.readWord a = some v ∧
        (∀ c, c ≠ a → c ≠ a + 1#16 → m'.read c = m.read c) ∧ (m.wf → m'.wf))

/-- A store over the next instruction is seen by the very next fetch (R79, R357). -/
def Obligations.StoredCodeIsFetched : Prop :=
  ∀ (s : State) (rd rs : Reg) (j : Instr), s.x rs = s.pc + 2#16 → s.x rs ≠ 0xFFFF#16 → Compact (s.x rd) j →
    ∃ t, exec (.sw rd rs) s = .next t ∧ (ReadyToFetch t → step t = exec j t.deliver)

/-- ALT is changed only by EXX and reset, and switching copies nothing (R25). -/
def Obligations.OnlyExxSwitchesBank : Prop :=
  (∀ (i : Instr) (s t : State), exec i s = .next t → t.alt = if i = .exx then !s.alt else s.alt) ∧
  (∀ s t : State, ReadyToAccept s → step s = .next t → t.alt = s.alt) ∧
  (∀ s t u : State, exec .exx s = .next t → exec .exx t = .next u →
    (∀ p, t.phys p = s.phys p) ∧ ∀ i, u.x i = s.x i) ∧
  (∀ (s : State) (base : Word) (mem : Memory), (s.resetKeepingEnv base mem).alt = false)

/-- IV is written only by SETIV; IE only by EI, DI, RETI, SWI and interrupt entry (R37, R311). -/
def Obligations.ControlRegisterWriters : Prop :=
  (∀ (i : Instr) (s t : State), exec i s = .next t →
    (causeOf i s = none → t.iv = ivAfter i s ∧ t.ie = ieAfter i s) ∧
    (causeOf i s ≠ none → t.iv = s.iv ∧ t.ie = s.ie)) ∧
  (∀ s t : State, ReadyToAccept s → step s = .next t →
    t.iv = s.iv ∧ (t.run = .running → t.ie = false) ∧ (t.run ≠ .running → t.ie = true))

/-- Every flag outside the list of the flags an instruction writes keeps its value (R31, R36). -/
def Obligations.FlagsChangeOnlyWhereListed : Prop :=
  (∀ (i : Instr) (s t : State), exec i s = .next t →
    ((flagsWritten i).n = false → t.flags.n = s.flags.n) ∧ ((flagsWritten i).z = false → t.flags.z = s.flags.z) ∧
    ((flagsWritten i).c = false → t.flags.c = s.flags.c) ∧ ((flagsWritten i).v = false → t.flags.v = s.flags.v) ∧
    ((flagsWritten i).h = false → t.flags.h = s.flags.h)) ∧
  (∀ s t : State, ReadyToAccept s → step s = .next t → t.flags = s.flags)

/-- No instruction but GETF depends on H (R36, R296). -/
def Obligations.OnlyGetfSeesHalfCarry : Prop :=
  ∀ (i : Instr) (s : State) (h : Bool), (∀ rd, i ≠ .getf rd) →
    ∃ t, exec i s = .next t ∧
      ((flagsWritten i).h = true → exec i (withH s h) = .next t) ∧
      ((flagsWritten i).h = false → exec i (withH s h) = .next (withH t h))

/-- Only stores, pushes and block writes change memory; only IN and OUT reach the port space (R61, R7). -/
def Obligations.SpacesReachedByInstructions : Prop :=
  ∀ (i : Instr) (s t : State), exec i s = .next t →
    (mayStore i = false → OtherBytes s t []) ∧
    t.env.readPorts = s.env.readPorts ∧ t.env.writePorts = s.env.writePorts ∧ t.env.irqs = s.env.irqs ∧
    (usesPort i = false → causeOf i s = none → t.env = s.env) ∧
    (∃ calls, t.env.outputs = s.env.outputs ++ calls ∧ calls.length ≤ 1)

/-- A block operation entered with count zero touches no memory and no register and sets Z (R261). -/
def Obligations.ZeroCountTouchesNothing : Prop :=
  ∀ s : State, s.x 4#4 = 0x0000#16 →
    OnlyFlagsAndPc .ldi { s.flags with z := true } (s.pc + 2#16) s ∧
    OnlyFlagsAndPc .ldd { s.flags with z := true } (s.pc + 2#16) s ∧
    OnlyFlagsAndPc .ldir { s.flags with z := true } (s.pc + 2#16) s ∧
    OnlyFlagsAndPc .lddr { s.flags with z := true } (s.pc + 2#16) s ∧
    OnlyFlagsAndPc .fill { s.flags with z := true } (s.pc + 2#16) s ∧
    OnlyFlagsAndPc .cpir { s.flags with z := true, c := false } (s.pc + 2#16) s

/-- Decoding the bytes of any well-formed instruction gives that instruction back, whatever follows (R109, R110,
R114). -/
def Obligations.DecodeOfEncodeIsIdentity : Prop :=
  ∀ (i : Instr) (rest : List Byte), i.wellFormed = true → decodeBytes (encodeBytes i ++ rest) = .ok i

/-- Whatever bytes decode, they start with the encoding of what they decode to: no second encoding exists (R109,
R110). -/
def Obligations.EncodeOfDecodeIsIdentity : Prop :=
  ∀ (bytes : List Byte) (i : Instr), decodeBytes bytes = .ok i →
    i.wellFormed = true ∧ ∃ rest, bytes = encodeBytes i ++ rest

/-- Words written out from the spec decode to the instructions they stand for (R92, R102, R107, R108). -/
def Obligations.SampleWordsDecode : Prop :=
  decode (.compact 0x0456#16) = .ok (.add 4#4 5#4 6#4) ∧ decode (.compact 0x540A#16) = .ok (.addi 4#4 10#8) ∧
  decode (.compact 0x9FCE#16) = .ok (.j (BitVec.ofInt 12 (-50))) ∧ decode (.compact 0x9805#16) = .ok (.jr 5#4) ∧
  decode (.compact 0x9815#16) = .ok (.jalr 5#4) ∧
  decode (.compact 0x9820#16) = .ok (.j (BitVec.ofInt 12 (-2016))) ∧
  decode (.compact 0xC057#16) = .ok (.push 5#4) ∧ decode (.compact 0xC408#16) = .ok (.pop 4#4) ∧
  decode (.compact 0xD681#16) = .ok (.outPort 6#4 8#4) ∧ decode (.compact 0xE406#16) = .ok (.getf 4#4) ∧
  decode (.extended 0xF405#16 0xBEEF#16) = .ok (.li 4#4 0xBEEF#16) ∧
  decode (.extended 0xF00B#16 0x1000#16) = .ok (.beqFar 0x1000#16)

/-- AddFlags: the sum modulo 2^16, and N, Z, C, V, H as the rule defines them (R32). -/
def Obligations.AddFlagsMeaning : Prop :=
  ∀ (a b : Word) (cin : Bool),
    (addFlags a b cin).1.toNat = (a.toNat + b.toNat + cin.toNat) % 65536 ∧
    (addFlags a b cin).2.n = (addFlags a b cin).1.getLsbD 15 ∧
    ((addFlags a b cin).2.z = true ↔ (addFlags a b cin).1 = 0x0000#16) ∧
    ((addFlags a b cin).2.c = true ↔ 0xFFFF < a.toNat + b.toNat + cin.toNat) ∧
    (addFlags a b cin).2.v = (~~~(a ^^^ b) &&& (a ^^^ (addFlags a b cin).1)).getLsbD 15 ∧
    ((addFlags a b cin).2.v = true ↔
      a.toInt + b.toInt + cin.toNat < -32768 ∨ 32767 < a.toInt + b.toInt + cin.toNat) ∧
    ((addFlags a b cin).2.h = true ↔ 0xF < a.toNat % 16 + b.toNat % 16 + cin.toNat)

/-- SubFlags: a - b - (1 - cin), C for no borrow, and what the flags say of the operands (R33). -/
def Obligations.SubFlagsMeaning : Prop :=
  ∀ (a b : Word) (cin : Bool),
    (subFlags a b cin).1.toNat = (a.toNat + (~~~b).toNat + cin.toNat) % 65536 ∧
    (subFlags a b cin).1 = a - b - BitVec.ofNat 16 (1 - cin.toNat) ∧
    (subFlags a b cin).2.n = (subFlags a b cin).1.getLsbD 15 ∧
    ((subFlags a b cin).2.z = true ↔ (subFlags a b cin).1 = 0x0000#16) ∧
    ((subFlags a b cin).2.c = true ↔ 0xFFFF < a.toNat + (~~~b).toNat + cin.toNat) ∧
    (subFlags a b cin).2.v = ((a ^^^ b) &&& (a ^^^ (subFlags a b cin).1)).getLsbD 15 ∧
    ((subFlags a b cin).2.v = true ↔ a.toInt - b.toInt - (1 - (cin.toNat : Int)) < -32768 ∨
      32767 < a.toInt - b.toInt - (1 - (cin.toNat : Int))) ∧
    ((subFlags a b cin).2.h = true ↔ 0xF < a.toNat % 16 + (~~~b).toNat % 16 + cin.toNat) ∧
    (cin = true → ((subFlags a b cin).2.c = true ↔ b.toNat ≤ a.toNat) ∧
      ((subFlags a b cin).2.z = true ↔ a = b) ∧
      ((subFlags a b cin).2.n ≠ (subFlags a b cin).2.v ↔ a.toInt < b.toInt))

/-- LogicFlags clears C and V, ShiftFlags takes C from the bit that left; both keep H (R34, R35). -/
def Obligations.LogicAndShiftFlags : Prop :=
  ∀ (r : Word) (cout : Bool) (f : Flags),
    logicFlags r f = { n := r.getLsbD 15, z := decide (r = 0x0000#16), c := false, v := false, h := f.h } ∧
    shiftFlags r cout f = { n := r.getLsbD 15, z := decide (r = 0x0000#16), c := cout, v := false, h := f.h }

/-- ADD, ADDI (both forms) and ADC: encoding, sum, five flags, and nothing else (R130, R135, R136, R153). -/
def Obligations.AdditionInstructions : Prop :=
  ∀ (s : State) (rd ra rb : Reg) (imm8 : BitVec 8) (imm : Word),
    (Compact (word4 0x0#4 rd ra rb) (.add rd ra rb) ∧
      Computes (.add rd ra rb) 2#16 rd (addFlags (s.x ra) (s.x rb) false).1 (addFlags (s.x ra) (s.x rb) false).2 s) ∧
    (Compact (word3 0x5#4 rd imm8) (.addi rd imm8) ∧
      Computes (.addi rd imm8) 2#16 rd (addFlags (s.x rd) (imm8.signExtend 16) false).1
        (addFlags (s.x rd) (imm8.signExtend 16) false).2 s) ∧
    (Extended (word4 0xF#4 rd ra 0x0#4) imm (.addiExt rd ra imm) ∧
      Computes (.addiExt rd ra imm) 4#16 rd (addFlags (s.x ra) imm false).1 (addFlags (s.x ra) imm false).2 s) ∧
    (Compact (word4 0xC#4 rd ra 0x3#4) (.adc rd ra) ∧
      Computes (.adc rd ra) 2#16 rd (addFlags (s.x rd) (s.x ra) s.flags.c).1
        (addFlags (s.x rd) (s.x ra) s.flags.c).2 s)

/-- SUB, NEG and SBC: encoding, difference, five flags, and nothing else (R131, R152, R154). -/
def Obligations.SubtractionInstructions : Prop :=
  ∀ (s : State) (rd ra rb : Reg),
    (Compact (word4 0x1#4 rd ra rb) (.sub rd ra rb) ∧
      Computes (.sub rd ra rb) 2#16 rd (s.x ra - s.x rb) (subFlags (s.x ra) (s.x rb) true).2 s) ∧
    (Compact (word4 0xC#4 rd ra 0x2#4) (.neg rd ra) ∧
      Computes (.neg rd ra) 2#16 rd (0x0000#16 - s.x ra) (subFlags 0x0000#16 (s.x ra) true).2 s) ∧
    (Compact (word4 0xC#4 rd ra 0x4#4) (.sbc rd ra) ∧
      Computes (.sbc rd ra) 2#16 rd (s.x rd - s.x ra - BitVec.ofNat 16 (1 - s.flags.c.toNat))
        (subFlags (s.x rd) (s.x ra) s.flags.c).2 s)

/-- CMP, CMPI and TST: encoding, flags only (R140, R155, R156). -/
def Obligations.ComparisonInstructions : Prop :=
  ∀ (s : State) (ra rb : Reg) (imm : Word),
    (Extended (word4 0xF#4 ra 0x0#4 0x4#4) imm (.cmpi ra imm) ∧
      ExtFieldMustBeZero (fun b => word4 0xF#4 ra b 0x4#4) ∧
      OnlyFlagsAndPc (.cmpi ra imm) (subFlags (s.x ra) imm true).2 (s.pc + 4#16) s) ∧
    (Compact (word4 0xC#4 ra rb 0x5#4) (.cmp ra rb) ∧
      OnlyFlagsAndPc (.cmp ra rb) (subFlags (s.x ra) (s.x rb) true).2 (s.pc + 2#16) s) ∧
    (Compact (word4 0xC#4 ra rb 0x6#4) (.tst ra rb) ∧
      OnlyFlagsAndPc (.tst ra rb) (logicFlags (s.x ra &&& s.x rb) s.flags) (s.pc + 2#16) s)

/-- AND, OR, XOR and NOT: encoding, result, N and Z set, C and V cleared, H kept (R132, R133, R134, R151). -/
def Obligations.BitwiseInstructions : Prop :=
  ∀ (s : State) (rd ra rb : Reg),
    (Compact (word4 0x2#4 rd ra rb) (.and rd ra rb) ∧
      Computes (.and rd ra rb) 2#16 rd (s.x ra &&& s.x rb) (logicFlags (s.x ra &&& s.x rb) s.flags) s) ∧
    (Compact (word4 0x3#4 rd ra rb) (.or rd ra rb) ∧
      Computes (.or rd ra rb) 2#16 rd (s.x ra ||| s.x rb) (logicFlags (s.x ra ||| s.x rb) s.flags) s) ∧
    (Compact (word4 0x4#4 rd ra rb) (.xor rd ra rb) ∧
      Computes (.xor rd ra rb) 2#16 rd (s.x ra ^^^ s.x rb) (logicFlags (s.x ra ^^^ s.x rb) s.flags) s) ∧
    (Compact (word4 0xC#4 rd ra 0x1#4) (.not rd ra) ∧
      Computes (.not rd ra) 2#16 rd (~~~(s.x ra)) (logicFlags (~~~(s.x ra)) s.flags) s)

/-- ANDI, ORI and XORI: encoding, result with the 16-bit immediate, flags (R137, R138, R139). -/
def Obligations.ImmediateBitwiseInstructions : Prop :=
  ∀ (s : State) (rd ra : Reg) (imm : Word),
    (Extended (word4 0xF#4 rd ra 0x1#4) imm (.andi rd ra imm) ∧
      Computes (.andi rd ra imm) 4#16 rd (s.x ra &&& imm) (logicFlags (s.x ra &&& imm) s.flags) s) ∧
    (Extended (word4 0xF#4 rd ra 0x2#4) imm (.ori rd ra imm) ∧
      Computes (.ori rd ra imm) 4#16 rd (s.x ra ||| imm) (logicFlags (s.x ra ||| imm) s.flags) s) ∧
    (Extended (word4 0xF#4 rd ra 0x3#4) imm (.xori rd ra imm) ∧
      Computes (.xori rd ra imm) 4#16 rd (s.x ra ^^^ imm) (logicFlags (s.x ra ^^^ imm) s.flags) s)

/-- MOV, LI, SWAP and SEXT: encoding, value, no flag (R141, R150, R177, R178). -/
def Obligations.MoveInstructions : Prop :=
  ∀ (s : State) (rd ra : Reg) (imm : Word),
    (Compact (word4 0xC#4 rd ra 0x0#4) (.mov rd ra) ∧ Computes (.mov rd ra) 2#16 rd (s.x ra) s.flags s) ∧
    (Extended (word4 0xF#4 rd 0x0#4 0x5#4) imm (.li rd imm) ∧ ExtFieldMustBeZero (fun b => word4 0xF#4 rd b 0x5#4) ∧
      Computes (.li rd imm) 4#16 rd imm s.flags s) ∧
    (Compact (word4 0xA#4 rd ra 0x7#4) (.swap rd ra) ∧
      Computes (.swap rd ra) 2#16 rd ((s.x ra).extractLsb' 0 8 ++ (s.x ra).extractLsb' 8 8) s.flags s) ∧
    (Compact (word4 0xA#4 rd ra 0x8#4) (.sext rd ra) ∧
      Computes (.sext rd ra) 2#16 rd (((s.x ra).extractLsb' 0 8).signExtend 16) s.flags s)

/-- SLL, SRL, SRA, ROL, ROR, RCL and RCR: encoding, one-bit result, flags (R170, R171, R172, R173, R174, R175, R176).
-/
def Obligations.ShiftInstructions : Prop :=
  ∀ (s : State) (rd rs : Reg),
    Shifts 0x0#4 .sll rd rs (s.x rs <<< 1) ((s.x rs).getLsbD 15) s ∧
    Shifts 0x1#4 .srl rd rs (s.x rs >>> 1) ((s.x rs).getLsbD 0) s ∧
    Shifts 0x2#4 .sra rd rs ((s.x rs).sshiftRight 1) ((s.x rs).getLsbD 0) s ∧
    Shifts 0x3#4 .rol rd rs ((s.x rs).rotateLeft 1) ((s.x rs).getLsbD 15) s ∧
    Shifts 0x4#4 .ror rd rs ((s.x rs).rotateRight 1) ((s.x rs).getLsbD 0) s ∧
    Shifts 0x5#4 .rcl rd rs ((s.x rs).extractLsb' 0 15 ++ BitVec.ofBool s.flags.c) ((s.x rs).getLsbD 15) s ∧
    Shifts 0x6#4 .rcr rd rs (BitVec.ofBool s.flags.c ++ (s.x rs).extractLsb' 1 15) ((s.x rs).getLsbD 0) s

/-- MUL, MULH and MULHU: encoding, the halves of the product, no flag (R180, R181, R182). -/
def Obligations.MultiplyInstructions : Prop :=
  ∀ (s : State) (rd rs : Reg),
    (Compact (word4 0xB#4 rd rs 0x0#4) (.mul rd rs) ∧
      Computes (.mul rd rs) 2#16 rd (BitVec.ofNat 16 ((s.x rd).toNat * (s.x rs).toNat)) s.flags s) ∧
    (Compact (word4 0xB#4 rd rs 0x1#4) (.mulh rd rs) ∧
      Computes (.mulh rd rs) 2#16 rd (BitVec.ofInt 16 (Int.fdiv ((s.x rd).toInt * (s.x rs).toInt) 65536)) s.flags s) ∧
    (Compact (word4 0xB#4 rd rs 0x2#4) (.mulhu rd rs) ∧
      Computes (.mulhu rd rs) 2#16 rd (BitVec.ofNat 16 ((s.x rd).toNat * (s.x rs).toNat / 65536)) s.flags s)

/-- DIV, DIVU, REM and REMU: encoding, result by a non-zero divisor, fault by zero (R183, R184, R185, R186). -/
def Obligations.DivideInstructions : Prop :=
  ∀ (s : State) (rd rs : Reg),
    Compact (word4 0xB#4 rd rs 0x3#4) (.div rd rs) ∧ Compact (word4 0xB#4 rd rs 0x4#4) (.divu rd rs) ∧
    Compact (word4 0xB#4 rd rs 0x5#4) (.rem rd rs) ∧ Compact (word4 0xB#4 rd rs 0x6#4) (.remu rd rs) ∧
    (s.x rs ≠ 0x0000#16 →
      Computes (.div rd rs) 2#16 rd ((s.x rd).sdiv (s.x rs)) s.flags s ∧
      Computes (.divu rd rs) 2#16 rd (s.x rd / s.x rs) s.flags s ∧
      Computes (.rem rd rs) 2#16 rd ((s.x rd).srem (s.x rs)) s.flags s ∧
      Computes (.remu rd rs) 2#16 rd (s.x rd % s.x rs) s.flags s) ∧
    (s.x rs = 0x0000#16 →
      Faults (.div rd rs) .divideByZero s.pc s ∧ Faults (.divu rd rs) .divideByZero s.pc s ∧
      Faults (.rem rd rs) .divideByZero s.pc s ∧ Faults (.remu rd rs) .divideByZero s.pc s)

/-- The product's halves make the product; quotient and remainder make the dividend (R187, R181, R182, R185). -/
def Obligations.ProductAndQuotientLaws : Prop :=
  ∀ (s : State) (rd rs : Reg), rd ≠ 0#4 →
    (∃ lo hs hu, exec (.mul rd rs) s = .next lo ∧ exec (.mulh rd rs) s = .next hs ∧ exec (.mulhu rd rs) s = .next hu ∧
      (hs.x rd).toInt * 65536 + (lo.x rd).toNat = (s.x rd).toInt * (s.x rs).toInt ∧
      (hu.x rd).toNat * 65536 + (lo.x rd).toNat = (s.x rd).toNat * (s.x rs).toNat) ∧
    (s.x rs ≠ 0x0000#16 → ∃ q r, exec (.divu rd rs) s = .next q ∧ exec (.remu rd rs) s = .next r ∧
      (s.x rd).toNat = (q.x rd).toNat * (s.x rs).toNat + (r.x rd).toNat ∧ (r.x rd).toNat < (s.x rs).toNat) ∧
    (s.x rs ≠ 0x0000#16 → ∃ q r, exec (.div rd rs) s = .next q ∧ exec (.rem rd rs) s = .next r ∧
      (¬ (s.x rd = 0x8000#16 ∧ s.x rs = 0xFFFF#16) →
        (s.x rd).toInt = (q.x rd).toInt * (s.x rs).toInt + (r.x rd).toInt ∧
        (r.x rd).toInt.natAbs < (s.x rs).toInt.natAbs ∧
        (r.x rd = 0x0000#16 ∨ ((r.x rd).toInt < 0 ↔ (s.x rd).toInt < 0))) ∧
      (s.x rd = 0x8000#16 ∧ s.x rs = 0xFFFF#16 → q.x rd = 0x8000#16 ∧ r.x rd = 0x0000#16))

/-- BEQ BNE BLT BGE BMI BPL BGT BLE: both forms, when taken, and their meaning after CMP (R203, R204, R205, R206,
R209, R210, R215, R216). -/
def Obligations.EqualityAndSignedBranches : Prop :=
  (Condition 0x0#4 .beq .beqFar (fun f => f.z = true) ∧ AfterCompare .beq .beqFar (fun a b => a = b)) ∧
  (Condition 0x1#4 .bne .bneFar (fun f => f.z = false) ∧ AfterCompare .bne .bneFar (fun a b => a ≠ b)) ∧
  (Condition 0x2#4 .blt .bltFar (fun f => f.n ≠ f.v) ∧ AfterCompare .blt .bltFar (fun a b => a.toInt < b.toInt)) ∧
  (Condition 0x3#4 .bge .bgeFar (fun f => f.n = f.v) ∧ AfterCompare .bge .bgeFar (fun a b => b.toInt ≤ a.toInt)) ∧
  Condition 0x6#4 .bmi .bmiFar (fun f => f.n = true) ∧
  Condition 0x7#4 .bpl .bplFar (fun f => f.n = false) ∧
  (Condition 0xC#4 .bgt .bgtFar (fun f => f.z = false ∧ f.n = f.v) ∧
    AfterCompare .bgt .bgtFar (fun a b => b.toInt < a.toInt)) ∧
  (Condition 0xD#4 .ble .bleFar (fun f => f.z = true ∨ f.n ≠ f.v) ∧
    AfterCompare .ble .bleFar (fun a b => a.toInt ≤ b.toInt))

/-- BLTU BGEU BVS BVC BCS BCC BHI BLS: both forms, when taken, and their meaning after CMP and ADD (R207, R208, R211,
R212, R213, R214, R217, R218). -/
def Obligations.CarryAndOverflowBranches : Prop :=
  (Condition 0x4#4 .bltu .bltuFar (fun f => f.c = false) ∧
    AfterCompare .bltu .bltuFar (fun a b => a.toNat < b.toNat)) ∧
  (Condition 0x5#4 .bgeu .bgeuFar (fun f => f.c = true) ∧
    AfterCompare .bgeu .bgeuFar (fun a b => b.toNat ≤ a.toNat)) ∧
  Condition 0x8#4 .bvs .bvsFar (fun f => f.v = true) ∧
  Condition 0x9#4 .bvc .bvcFar (fun f => f.v = false) ∧
  (Condition 0xA#4 .bcs .bcsFar (fun f => f.c = true) ∧
    (∀ (s : State) (rd ra rb : Reg) (off : BitVec 8), ∃ t u,
      exec (.add rd ra rb) s = .next t ∧
      GoesIf (.bcs off) t (0xFFFF < (s.x ra).toNat + (s.x rb).toNat) (target t.pc 2 off.toInt) (t.pc + 2#16) ∧
      exec (.sub rd ra rb) s = .next u ∧
      GoesIf (.bcs off) u ((s.x rb).toNat ≤ (s.x ra).toNat) (target u.pc 2 off.toInt) (u.pc + 2#16))) ∧
  Condition 0xB#4 .bcc .bccFar (fun f => f.c = false) ∧
  (Condition 0xE#4 .bhi .bhiFar (fun f => f.c = true ∧ f.z = false) ∧
    AfterCompare .bhi .bhiFar (fun a b => b.toNat < a.toNat)) ∧
  (Condition 0xF#4 .bls .blsFar (fun f => f.c = false ∨ f.z = true) ∧
    AfterCompare .bls .blsFar (fun a b => a.toNat ≤ b.toNat))

/-- Every compact and far branch follows the one condition table (R200, R201). -/
def Obligations.BranchFormsFollowTheTable : Prop :=
  (∀ c : Cond, Condition c.code (compactBranch c) (farBranch c) (fun f => condHolds c f = true)) ∧
  (∀ (c : Cond) (f : Flags) (h : Bool), condHolds c { f with h := h } = condHolds c f) ∧
  (∀ f : Flags, condHolds .ne f = !condHolds .eq f ∧ condHolds .ge f = !condHolds .lt f ∧
    condHolds .geu f = !condHolds .ltu f ∧ condHolds .pl f = !condHolds .mi f ∧ condHolds .vc f = !condHolds .vs f ∧
    condHolds .cc f = !condHolds .cs f ∧ condHolds .le f = !condHolds .gt f ∧ condHolds .ls f = !condHolds .hi f)

/-- J: both forms go to their word offset from the next instruction and change pc only (R220, R221). -/
def Obligations.RelativeJumps : Prop :=
  ∀ (s : State) (off : BitVec 12) (offFar : Word),
    (off.extractLsb' 5 7 ≠ 0b1000000#7 → Compact (0x9#4 ++ off) (.j off)) ∧
    (off.extractLsb' 5 7 = 0b1000000#7 → ∀ o, decode (.compact (0x9#4 ++ off)) ≠ .ok (.j o)) ∧
    OnlyFlagsAndPc (.j off) s.flags (target s.pc 2 off.toInt) s ∧
    Extended 0xF00C#16 offFar (.jFar offFar) ∧
    ExtFieldsMustBeZero (fun a b => word4 0xF#4 a b 0xC#4) ∧
    OnlyFlagsAndPc (.jFar offFar) s.flags (target s.pc 4 offFar.toInt) s

/-- JR, JALR, JMP and CALL: encoding, target, link in R1, and nothing else (R222, R223, R224, R225). -/
def Obligations.RegisterAndAbsoluteTransfers : Prop :=
  ∀ (s : State) (rs : Reg) (addr : Word),
    (Compact (word4 0x9#4 0x8#4 0x0#4 rs) (.jr rs) ∧ OnlyFlagsAndPc (.jr rs) s.flags (s.x rs) s) ∧
    (Compact (word4 0x9#4 0x8#4 0x1#4 rs) (.jalr rs) ∧ Links (.jalr rs) (s.pc + 2#16) (s.x rs) s) ∧
    (Extended 0xF00D#16 addr (.jmp addr) ∧ ExtFieldsMustBeZero (fun a b => word4 0xF#4 a b 0xD#4) ∧
      OnlyFlagsAndPc (.jmp addr) s.flags addr s) ∧
    (Extended 0xF00E#16 addr (.call addr) ∧ ExtFieldsMustBeZero (fun a b => word4 0xF#4 a b 0xE#4) ∧
      Links (.call addr) (s.pc + 4#16) addr s)

/-- LW, LB and LBU, both forms: encoding, effective address, value, range fault, and nothing else (R240, R241, R242,
R245, R246, R247). -/
def Obligations.LoadInstructions : Prop :=
  ∀ (s : State) (rd rs : Reg) (d : Word),
    (Compact (word4 0x6#4 rd rs 0x0#4) (.lw rd rs) ∧
      (s.eaIndirect rs ≠ 0xFFFF#16 → Computes (.lw rd rs) 2#16 rd (wordIn s (s.eaIndirect rs)) s.flags s) ∧
      (s.eaIndirect rs = 0xFFFF#16 → Faults (.lw rd rs) .memOutOfRange 0xFFFF#16 s)) ∧
    (Compact (word4 0x6#4 rd rs 0x1#4) (.lb rd rs) ∧
      Computes (.lb rd rs) 2#16 rd ((s.mem.read (s.eaIndirect rs)).signExtend 16) s.flags s) ∧
    (Compact (word4 0x6#4 rd rs 0x2#4) (.lbu rd rs) ∧
      Computes (.lbu rd rs) 2#16 rd ((s.mem.read (s.eaIndirect rs)).setWidth 16) s.flags s) ∧
    (Extended (word4 0xF#4 rd rs 0x6#4) d (.lwExt rd rs d) ∧
      (s.eaDisplaced rs d ≠ 0xFFFF#16 → Computes (.lwExt rd rs d) 4#16 rd (wordIn s (s.eaDisplaced rs d)) s.flags s) ∧
      (s.eaDisplaced rs d = 0xFFFF#16 → Faults (.lwExt rd rs d) .memOutOfRange 0xFFFF#16 s)) ∧
    (Extended (word4 0xF#4 rd rs 0x7#4) d (.lbExt rd rs d) ∧
      Computes (.lbExt rd rs d) 4#16 rd ((s.mem.read (s.eaDisplaced rs d)).signExtend 16) s.flags s) ∧
    (Extended (word4 0xF#4 rd rs 0x8#4) d (.lbuExt rd rs d) ∧
      Computes (.lbuExt rd rs d) 4#16 rd ((s.mem.read (s.eaDisplaced rs d)).setWidth 16) s.flags s) ∧
    s.eaIndirect rs = s.x rs ∧ s.eaDisplaced rs d = s.x rs + d

/-- SW and SB, both forms: encoding, the bytes stored at the effective address, range fault, and nothing else (R243,
R244, R248, R249). -/
def Obligations.StoreInstructions : Prop :=
  ∀ (s : State) (rd rs : Reg) (d : Word),
    (Compact (word4 0x7#4 rd rs 0x0#4) (.sw rd rs) ∧
      (s.eaIndirect rs ≠ 0xFFFF#16 → StoresWord (.sw rd rs) 2#16 (s.eaIndirect rs) (s.x rd) s) ∧
      (s.eaIndirect rs = 0xFFFF#16 → Faults (.sw rd rs) .memOutOfRange 0xFFFF#16 s)) ∧
    (Compact (word4 0x7#4 rd rs 0x1#4) (.sb rd rs) ∧
      StoresByte (.sb rd rs) 2#16 (s.eaIndirect rs) ((s.x rd).extractLsb' 0 8) s) ∧
    (Extended (word4 0xF#4 rd rs 0x9#4) d (.swExt rd rs d) ∧
      (s.eaDisplaced rs d ≠ 0xFFFF#16 → StoresWord (.swExt rd rs d) 4#16 (s.eaDisplaced rs d) (s.x rd) s) ∧
      (s.eaDisplaced rs d = 0xFFFF#16 → Faults (.swExt rd rs d) .memOutOfRange 0xFFFF#16 s)) ∧
    (Extended (word4 0xF#4 rd rs 0xA#4) d (.sbExt rd rs d) ∧
      StoresByte (.sbExt rd rs d) 4#16 (s.eaDisplaced rs d) ((s.x rd).extractLsb' 0 8) s) ∧
    s.eaIndirect rs = s.x rs ∧ s.eaDisplaced rs d = s.x rs + d

/-- After SW, loads at the same address read back the word and its bytes (R254, R62). -/
def Obligations.StoreThenLoad : Prop :=
  ∀ (s : State) (ra rb rc : Reg), s.x rb ≠ 0xFFFF#16 → rc ≠ 0#4 →
    ∃ t w lo hi sx, exec (.sw ra rb) s = .next t ∧
      exec (.lw rc rb) t = .next w ∧ w.x rc = s.x ra ∧
      exec (.lbu rc rb) t = .next lo ∧ lo.x rc = 0x00#8 ++ (s.x ra).extractLsb' 0 8 ∧
      exec (.lbuExt rc rb 1#16) t = .next hi ∧ hi.x rc = 0x00#8 ++ (s.x ra).extractLsb' 8 8 ∧
      exec (.lb rc rb) t = .next sx ∧
      sx.x rc = (if (s.x ra).getLsbD 7 then 0xFF#8 else 0x00#8) ++ (s.x ra).extractLsb' 0 8

/-- PUSH and POP: encoding, stack effect, order of the two writes, range faults, and the round trip (R250, R251, R252,
R253). -/
def Obligations.PushAndPop : Prop :=
  ∀ (s : State) (ra rb : Reg),
    Compact (word4 0xC#4 0x0#4 ra 0x7#4) (.push ra) ∧ FieldMustBeZero (fun a => word4 0xC#4 a ra 0x7#4) ∧
    Compact (word4 0xC#4 rb 0x0#4 0x8#4) (.pop rb) ∧ FieldMustBeZero (fun b => word4 0xC#4 rb b 0x8#4) ∧
    (s.x 2#4 ≠ 0x0001#16 → ∃ t, exec (.push ra) s = .next t ∧
      t.mem.read (s.x 2#4 - 2#16) = (s.x ra).extractLsb' 0 8 ∧
      t.mem.read (s.x 2#4 - 1#16) = (s.x ra).extractLsb' 8 8 ∧
      OtherBytes s t [s.x 2#4 - 2#16, s.x 2#4 - 1#16] ∧ t.x 2#4 = s.x 2#4 - 2#16 ∧
      OtherRegisters s t [2#4] ∧ t.flags = s.flags ∧ t.pc = s.pc + 2#16 ∧ SameControl s t ∧
      (ra ≠ 2#4 → rb ≠ 2#4 → ∃ u, exec (.pop rb) t = .next u ∧ u.x rb = written rb (s.x ra) ∧ u.x 2#4 = s.x 2#4)) ∧
    (s.x 2#4 = 0x0001#16 → Faults (.push ra) .memOutOfRange 0xFFFF#16 s) ∧
    (s.x 2#4 ≠ 0xFFFF#16 → ∃ t, exec (.pop rb) s = .next t ∧
      t.x rb = written rb (wordIn s (s.x 2#4)) ∧ (rb ≠ 2#4 → t.x 2#4 = s.x 2#4 + 2#16) ∧
      OtherRegisters s t [2#4, rb] ∧ OtherBytes s t [] ∧ t.flags = s.flags ∧ t.pc = s.pc + 2#16 ∧ SameControl s t) ∧
    (s.x 2#4 = 0xFFFF#16 → Faults (.pop rb) .memOutOfRange 0xFFFF#16 s)

/-- LDI and LDD: encoding, one byte copied, pointers and count stepped, Z only (R263, R264). -/
def Obligations.SingleCopies : Prop :=
  ∀ s : State,
    Compact 0xC00A#16 .ldi ∧ FieldsMustBeZero (fun a b => word4 0xC#4 a b 0xA#4) ∧
    Compact 0xC00B#16 .ldd ∧ FieldsMustBeZero (fun a b => word4 0xC#4 a b 0xB#4) ∧
    (s.x 4#4 ≠ 0x0000#16 → CopiesOne .ldi 0x0001#16 s ∧ CopiesOne .ldd 0xFFFF#16 s) ∧
    (s.x 4#4 = 0x0000#16 → OnlyFlagsAndPc .ldi { s.flags with z := true } (s.pc + 2#16) s ∧
      OnlyFlagsAndPc .ldd { s.flags with z := true } (s.pc + 2#16) s)

/-- LDIR and LDDR: encoding, the block copied byte by byte in order, final pointers, Z set (R265, R266). -/
def Obligations.RepeatedCopies : Prop :=
  ∀ s : State,
    Compact 0xC00C#16 .ldir ∧ FieldsMustBeZero (fun a b => word4 0xC#4 a b 0xC#4) ∧
    Compact 0xC00D#16 .lddr ∧ FieldsMustBeZero (fun a b => word4 0xC#4 a b 0xD#4) ∧
    CopiesBlock .ldir 0x0001#16 s ∧ CopiesBlock .lddr 0xFFFF#16 s

/-- A block copy without overlap copies exactly, LDIR is LDI applied n times, and no block operation raises the count
(R269, R262). -/
def Obligations.BlockCopyLaws : Prop :=
  ∀ s : State,
    ((∀ j k, j < (s.x 4#4).toNat → k < (s.x 4#4).toNat →
        s.x 5#4 + BitVec.ofNat 16 j ≠ s.x 6#4 + BitVec.ofNat 16 k) →
      ∃ t, exec .ldir s = .next t ∧ ∀ k, k < (s.x 4#4).toNat →
        t.mem.read (s.x 6#4 + BitVec.ofNat 16 k) = s.mem.read (s.x 5#4 + BitVec.ofNat 16 k)) ∧
    ((∀ j k, j < (s.x 4#4).toNat → k < (s.x 4#4).toNat →
        s.x 5#4 - BitVec.ofNat 16 j ≠ s.x 6#4 - BitVec.ofNat 16 k) →
      ∃ t, exec .lddr s = .next t ∧ ∀ k, k < (s.x 4#4).toNat →
        t.mem.read (s.x 6#4 - BitVec.ofNat 16 k) = s.mem.read (s.x 5#4 - BitVec.ofNat 16 k)) ∧
    (s.x 4#4 ≠ 0x0000#16 → ∃ u v,
      times .ldi (s.x 4#4).toNat s = .next u ∧ exec .ldir s = .next { u with pc := s.pc + 2#16 } ∧
      times .ldd (s.x 4#4).toNat s = .next v ∧ exec .lddr s = .next { v with pc := s.pc + 2#16 }) ∧
    (∀ i ∈ [Instr.ldi, .ldd, .ldir, .lddr, .fill, .cpir],
      ∃ t, exec i s = .next t ∧ (t.x 4#4).toNat ≤ (s.x 4#4).toNat)

/-- FILL: encoding, exactly the destination bytes filled, final pointer and count, Z set (R268). -/
def Obligations.FillBlock : Prop :=
  ∀ s : State,
    Compact 0xC00E#16 .fill ∧ FieldsMustBeZero (fun a b => word4 0xC#4 a b 0xE#4) ∧
    ∃ t, exec .fill s = .next t ∧
      (∀ a ∈ addresses 1#16 (s.x 4#4).toNat (s.x 6#4), t.mem.read a = (s.x 7#4).extractLsb' 0 8) ∧
      OtherBytes s t (addresses 1#16 (s.x 4#4).toNat (s.x 6#4)) ∧
      t.x 4#4 = 0x0000#16 ∧ t.x 6#4 = s.x 6#4 + s.x 4#4 ∧ t.flags = { s.flags with z := true } ∧
      t.pc = s.pc + 2#16 ∧ OtherRegisters s t [4#4, 6#4] ∧ SameControl s t

/-- CPIR: encoding, stops one past the first match or at the end of the count, Z and C only (R267). -/
def Obligations.SearchBlock : Prop :=
  ∀ s : State,
    Compact 0xC00F#16 .cpir ∧ FieldsMustBeZero (fun a b => word4 0xC#4 a b 0xF#4) ∧
    ∃ t, exec .cpir s = .next t ∧
      (∀ k, k < (s.x 4#4).toNat → s.mem.read (s.x 5#4 + BitVec.ofNat 16 k) = (s.x 7#4).extractLsb' 0 8 →
        (∀ j, j < k → s.mem.read (s.x 5#4 + BitVec.ofNat 16 j) ≠ (s.x 7#4).extractLsb' 0 8) →
        t.x 4#4 = s.x 4#4 - BitVec.ofNat 16 (k + 1) ∧ t.x 5#4 = s.x 5#4 + BitVec.ofNat 16 (k + 1) ∧
        t.flags.c = true) ∧
      ((∀ j, j < (s.x 4#4).toNat → s.mem.read (s.x 5#4 + BitVec.ofNat 16 j) ≠ (s.x 7#4).extractLsb' 0 8) →
        t.x 4#4 = 0x0000#16 ∧ t.x 5#4 = s.x 5#4 + s.x 4#4 ∧ t.flags.c = false) ∧
      t.flags.z = decide (t.x 4#4 = 0x0000#16) ∧ t.flags.n = s.flags.n ∧ t.flags.v = s.flags.v ∧
      t.flags.h = s.flags.h ∧ t.pc = s.pc + 2#16 ∧ OtherRegisters s t [4#4, 5#4] ∧ OtherBytes s t [] ∧
      SameControl s t

/-- IN and OUT: encoding, one handler call for a mapped port, zero or discard for an unmapped one, fault above 255
(model's choices: logs 6, 7, 9) (R280, R281, R282). -/
def Obligations.PortInstructions : Prop :=
  ∀ (s : State) (rd rs : Reg),
    Compact (word4 0xD#4 rd rs 0x0#4) (.inPort rd rs) ∧ Compact (word4 0xD#4 rd rs 0x1#4) (.outPort rd rs) ∧
    (255 < (s.x rs).toNat → Faults (.inPort rd rs) .portOutOfRange (s.x rs) s) ∧
    ((s.x rs).toNat ≤ 255 → (s.x rs).extractLsb' 0 8 ∉ s.env.readPorts →
      Computes (.inPort rd rs) 2#16 rd 0x0000#16 s.flags s) ∧
    ((s.x rs).toNat ≤ 255 → (s.x rs).extractLsb' 0 8 ∈ s.env.readPorts →
      ∃ t b, exec (.inPort rd rs) s = .next t ∧ b = s.env.answers.headD (Config.portByte s.env.reads) ∧
        t.x rd = written rd (0x00#8 ++ b) ∧
        t.env = { s.env with answers := s.env.answers.tail, reads := s.env.reads + 1,
                             outputs := s.env.outputs ++ [.portRead ((s.x rs).extractLsb' 0 8) b] } ∧
        t.flags = s.flags ∧ t.pc = s.pc + 2#16 ∧ OtherRegisters s t [rd] ∧ OtherBytes s t [] ∧
        SameControl s { t with env := s.env }) ∧
    (255 < (s.x rd).toNat → Faults (.outPort rd rs) .portOutOfRange (s.x rd) s) ∧
    ((s.x rd).toNat ≤ 255 → (s.x rd).extractLsb' 0 8 ∉ s.env.writePorts →
      OnlyFlagsAndPc (.outPort rd rs) s.flags (s.pc + 2#16) s) ∧
    ((s.x rd).toNat ≤ 255 → (s.x rd).extractLsb' 0 8 ∈ s.env.writePorts →
      ∃ t, exec (.outPort rd rs) s = .next t ∧
        t.env = { s.env with
          outputs := s.env.outputs ++ [.portWrite ((s.x rd).extractLsb' 0 8) ((s.x rs).extractLsb' 0 8)] } ∧
        t.flags = s.flags ∧ t.pc = s.pc + 2#16 ∧ OtherRegisters s t [] ∧ OtherBytes s t [] ∧
        SameControl s { t with env := s.env })

/-- NOP, HALT, EI, DI, GETF, SETF, GETIV, SETIV and EXX: encoding, effect, and nothing else (R290, R291, R292, R293,
R296, R297, R298, R299, R300, R40). -/
def Obligations.SystemInstructions : Prop :=
  ∀ (s : State) (rd rs : Reg),
    (Compact 0xE000#16 .nop ∧ FieldsMustBeZero (fun a b => word4 0xE#4 a b 0x0#4) ∧
      OnlyFlagsAndPc .nop s.flags (s.pc + 2#16) s) ∧
    (Compact 0xE001#16 .halt ∧ FieldsMustBeZero (fun a b => word4 0xE#4 a b 0x1#4) ∧
      exec .halt s = .next { s with run := .halted }) ∧
    (Compact 0xE002#16 .ei ∧ FieldsMustBeZero (fun a b => word4 0xE#4 a b 0x2#4) ∧
      exec .ei s = .next { s with ie := true, pc := s.pc + 2#16 }) ∧
    (Compact 0xE003#16 .di ∧ FieldsMustBeZero (fun a b => word4 0xE#4 a b 0x3#4) ∧
      exec .di s = .next { s with ie := false, pc := s.pc + 2#16 }) ∧
    (Compact (word4 0xE#4 rd 0x0#4 0x6#4) (.getf rd) ∧ FieldMustBeZero (fun b => word4 0xE#4 rd b 0x6#4) ∧
      Computes (.getf rd) 2#16 rd
        (BitVec.ofNat 16 (128 * s.flags.n.toNat + 64 * s.flags.z.toNat + 32 * s.flags.c.toNat +
          16 * s.flags.v.toNat + 8 * s.flags.h.toNat)) s.flags s) ∧
    (Compact (word4 0xE#4 0x0#4 rs 0x7#4) (.setf rs) ∧ FieldMustBeZero (fun a => word4 0xE#4 a rs 0x7#4) ∧
      OnlyFlagsAndPc (.setf rs) { n := (s.x rs).getLsbD 7, z := (s.x rs).getLsbD 6, c := (s.x rs).getLsbD 5,
                                  v := (s.x rs).getLsbD 4, h := (s.x rs).getLsbD 3 } (s.pc + 2#16) s) ∧
    (Compact (word4 0xE#4 rd 0x0#4 0x8#4) (.getiv rd) ∧ FieldMustBeZero (fun b => word4 0xE#4 rd b 0x8#4) ∧
      Computes (.getiv rd) 2#16 rd s.iv s.flags s) ∧
    (Compact (word4 0xE#4 0x0#4 rs 0x9#4) (.setiv rs) ∧ FieldMustBeZero (fun a => word4 0xE#4 a rs 0x9#4) ∧
      exec (.setiv rs) s = .next { s with iv := s.x rs, pc := s.pc + 2#16 }) ∧
    (Compact 0xC009#16 .exx ∧ FieldsMustBeZero (fun a b => word4 0xC#4 a b 0x9#4) ∧
      exec .exx s = .next { s with alt := !s.alt, pc := s.pc + 2#16 })

/-- A branch or jump in the form the assembler selects reaches the target it was assembled for (R116, R117, R119). -/
def Obligations.AssembledTransferReachesTarget : Prop :=
  ∀ (s : State) (addr : Word) (i : Instr),
    (∀ c, chooseBranch c s.pc addr = some i → i.wellFormed = true ∧
      GoesIf i s (condHolds c s.flags = true) addr (s.pc + BitVec.ofNat 16 i.width)) ∧
    (chooseJump s.pc addr = some i → i.wellFormed = true ∧ OnlyFlagsAndPc i s.flags addr s)

end
end

