-- ==== Sys2Proof/Laws/Memory.lean ====
section
/-! SUPPORT. Memory: read after write for every list, and the canonical form kept by every operation. -/

namespace Sys2Proof.Machine

/-! ## Read after write -/

theorem Memory.lookup_erase_same (m : Memory) (a : Nat) : (m.erase a).lookup a = Config.memInit := by
  induction m with
  | nil => rfl
  | cons c m ih =>
    by_cases h : c.1 = a
    · simpa [Memory.erase, h] using ih
    · simpa [Memory.erase, Memory.lookup, h] using ih

theorem Memory.lookup_erase_other (m : Memory) {a b : Nat} (h : b ≠ a) : (m.erase a).lookup b = m.lookup b := by
  induction m with
  | nil => rfl
  | cons c m ih =>
    by_cases ha : c.1 = a
    · have hb : c.1 ≠ b := fun e => h (e.symm.trans ha)
      simpa [Memory.erase, Memory.lookup, ha, h.symm] using ih
    · by_cases hb : c.1 = b
      · simp [Memory.erase, Memory.lookup, hb, h]
      · simpa [Memory.erase, Memory.lookup, ha, hb] using ih

theorem Memory.lookup_insert_same (m : Memory) (a : Nat) (v : Byte) (h : ∀ c ∈ m, c.1 ≠ a) :
    (m.insert a v).lookup a = v := by
  induction m with
  | nil => simp [Memory.insert, Memory.lookup]
  | cons c m ih =>
    have hc : c.1 ≠ a := h c (by simp)
    have hm : ∀ d ∈ m, d.1 ≠ a := fun d hd => h d (by simp [hd])
    by_cases hlt : a < c.1
    · simp [Memory.insert, Memory.lookup, hlt]
    · simpa [Memory.insert, Memory.lookup, hlt, hc] using ih hm

theorem Memory.lookup_insert_other (m : Memory) {a b : Nat} (v : Byte) (h : b ≠ a) :
    (m.insert a v).lookup b = m.lookup b := by
  induction m with
  | nil => simp [Memory.insert, Memory.lookup, h.symm]
  | cons c m ih =>
    by_cases hlt : a < c.1
    · simp [Memory.insert, Memory.lookup, hlt, h.symm]
    · by_cases hb : c.1 = b
      · subst hb; simp [Memory.insert, Memory.lookup, hlt]
      · simpa [Memory.insert, Memory.lookup, hlt, hb] using ih

theorem Memory.mem_erase_ne (m : Memory) (a : Nat) : ∀ c ∈ m.erase a, c.1 ≠ a := by
  intro c hc
  simpa using (List.mem_filter.mp hc).2

/-- Reading the byte just written (20_memory.md R63, R64). -/
@[simp] theorem Memory.read_write_same (m : Memory) (a : Word) (v : Byte) : (m.write a v).read a = v := by
  unfold Memory.write Memory.read
  split
  · next h => rw [h]; exact Memory.lookup_erase_same m _
  · exact Memory.lookup_insert_same _ _ _ (Memory.mem_erase_ne m _)

/-- Every other address reads as before (R64). -/
theorem Memory.read_write_other (m : Memory) {a b : Word} (v : Byte) (h : b ≠ a) : (m.write a v).read b = m.read b := by
  have hn : b.toNat ≠ a.toNat := fun e => h (BitVec.eq_of_toNat_eq e)
  unfold Memory.write Memory.read
  split
  · exact Memory.lookup_erase_other m hn
  · rw [Memory.lookup_insert_other _ _ hn, Memory.lookup_erase_other m hn]

theorem Memory.read_write (m : Memory) (a b : Word) (v : Byte) :
    (m.write a v).read b = if b = a then v else m.read b := by
  split
  · next h => rw [h, Memory.read_write_same]
  · next h => exact Memory.read_write_other m v h

/-! ## Words -/

theorem wordInRange_iff (a : Word) : wordInRange a = true ↔ a ≠ 0xFFFF#16 := by
  have := a.isLt
  simp only [wordInRange, decide_eq_true_eq]
  constructor
  · rintro h rfl; simp at h
  · intro h
    have : a.toNat ≠ 0xFFFF := fun e => h (BitVec.eq_of_toNat_eq (by simpa using e))
    omega

theorem Memory.readWord_eq_none (m : Memory) (a : Word) : m.readWord a = none ↔ a = 0xFFFF#16 := by
  unfold Memory.readWord
  split
  · next h => simpa using (wordInRange_iff a).mp h
  · next h => simpa [wordInRange_iff] using h

theorem Memory.readWord_of_ne (m : Memory) {a : Word} (h : a ≠ 0xFFFF#16) :
    m.readWord a = some (wordOfBytes (m.read a) (m.read (a + 1#16))) := by
  simp [Memory.readWord, (wordInRange_iff a).mpr h]

theorem Memory.writeWord_of_ne (m : Memory) {a : Word} (v : Word) (h : a ≠ 0xFFFF#16) :
    m.writeWord a v = some ((m.write a (v.extractLsb' 0 8)).write (a + 1#16) (v.extractLsb' 8 8)) := by
  simp [Memory.writeWord, (wordInRange_iff a).mpr h]

@[simp] theorem Memory.readWord_top (m : Memory) : m.readWord 0xFFFF#16 = none := rfl

@[simp] theorem Memory.writeWord_top (m : Memory) (v : Word) : m.writeWord 0xFFFF#16 v = none := rfl

/-- A word's two bytes put together give the word. -/
@[simp] theorem wordOfBytes_split (v : Word) : wordOfBytes (v.extractLsb' 0 8) (v.extractLsb' 8 8) = v := by
  apply BitVec.eq_of_getLsbD_eq
  intro i hi
  rw [wordOfBytes, BitVec.getLsbD_append]
  by_cases h : i < 8
  · simp [h]
  · have h1 : i - 8 < 8 := by omega
    have h2 : 8 + (i - 8) = i := by omega
    simp [h, h1, h2]

theorem add_one_ne (a : Word) : a + 1#16 ≠ a := by
  simp

/-- All that a 2-byte write does, read back byte by byte (R62, R64). -/
theorem Memory.read_writeWord (m m' : Memory) (a v : Word) (h : m.writeWord a v = some m') (b : Word) :
    m'.read b = if b = a + 1#16 then v.extractLsb' 8 8 else if b = a then v.extractLsb' 0 8 else m.read b := by
  unfold Memory.writeWord at h
  split at h
  · cases h; rw [Memory.read_write, Memory.read_write]
  · cases h

/-! ## The canonical form -/

theorem Memory.wf_erase {m : Memory} (a : Nat) (h : m.wf) : (m.erase a).wf :=
  ⟨h.1.sublist List.filter_sublist, fun c hc => h.2 c (List.mem_of_mem_filter hc)⟩

theorem Memory.mem_insert {m : Memory} {a : Nat} {v : Byte} {c : Host.Cell} :
    c ∈ m.insert a v ↔ c = (a, v) ∨ c ∈ m := by
  induction m with
  | nil => simp [Memory.insert]
  | cons d m ih =>
    by_cases hlt : a < d.1
    · simp [Memory.insert, hlt]
    · simp only [Memory.insert, hlt, if_false, List.mem_cons, ih]; tauto

theorem Memory.wf_insert {m : Memory} {a : Nat} {v : Byte} (h : m.wf) (hn : ∀ c ∈ m, c.1 ≠ a) (ha : a < 0x10000)
    (hv : v ≠ Config.memInit) : (m.insert a v).wf := by
  refine ⟨?_, fun c hc => ?_⟩
  · obtain ⟨hp, -⟩ := h
    induction m with
    | nil => simp [Memory.insert]
    | cons d m ih =>
      rw [List.pairwise_cons] at hp
      by_cases hlt : a < d.1
      · simp only [Memory.insert, hlt, if_true, List.pairwise_cons]
        refine ⟨fun c hc => ?_, hp⟩
        rcases List.mem_cons.mp hc with rfl | hc
        · exact hlt
        · exact lt_trans hlt (hp.1 c hc)
      · simp only [Memory.insert, hlt, if_false, List.pairwise_cons]
        refine ⟨fun c hc => ?_, ih (fun c hc => hn c (by simp [hc])) hp.2⟩
        rcases Memory.mem_insert.mp hc with rfl | hc
        · exact lt_of_le_of_ne (Nat.le_of_not_lt hlt) (hn d (by simp))
        · exact hp.1 c hc
  · rcases Memory.mem_insert.mp hc with rfl | hc
    · exact ⟨ha, hv⟩
    · exact h.2 c hc

/-- A byte write keeps the canonical form. -/
theorem Memory.wf_write {m : Memory} (a : Word) (v : Byte) (h : m.wf) : (m.write a v).wf := by
  unfold Memory.write
  split
  · exact Memory.wf_erase _ h
  · next hv => exact Memory.wf_insert (Memory.wf_erase _ h) (Memory.mem_erase_ne m _) a.isLt hv

/-- A word write keeps the canonical form. -/
theorem Memory.wf_writeWord {m m' : Memory} {a v : Word} (h : m.wf) (hw : m.writeWord a v = some m') : m'.wf := by
  unfold Memory.writeWord at hw
  split at hw
  · cases hw; exact Memory.wf_write _ _ (Memory.wf_write _ _ h)
  · cases hw

/-- Placing bytes keeps the canonical form. -/
theorem Memory.wf_writeBytes (bytes : List Byte) : ∀ {m : Memory} (a : Word), m.wf → (m.writeBytes a bytes).wf := by
  induction bytes with
  | nil => exact fun _ h => h
  | cons b bytes ih => exact fun a h => ih (a + 1#16) (Memory.wf_write a b h)

theorem Memory.wf_nil : Memory.wf [] := ⟨List.Pairwise.nil, fun _ h => absurd h List.not_mem_nil⟩

theorem State.reset_mem_wf : State.reset.mem.wf := Memory.wf_nil

end Sys2Proof.Machine
end

