-- ==== Sys2Proof/Laws/State.lean ====
section
/-! SUPPORT. One lemma per field per update of the state, so that no later proof unfolds a record update. -/

namespace Sys2Proof.Machine

/-! ## `State.withFlags` -/

@[simp] theorem State.withFlags_r (s : State) (f : Flags) : (s.withFlags f).r = s.r := rfl
@[simp] theorem State.withFlags_sh (s : State) (f : Flags) : (s.withFlags f).sh = s.sh := rfl
@[simp] theorem State.withFlags_alt (s : State) (f : Flags) : (s.withFlags f).alt = s.alt := rfl
@[simp] theorem State.withFlags_pc (s : State) (f : Flags) : (s.withFlags f).pc = s.pc := rfl
@[simp] theorem State.withFlags_flags (s : State) (f : Flags) : (s.withFlags f).flags = f := rfl
@[simp] theorem State.withFlags_iv (s : State) (f : Flags) : (s.withFlags f).iv = s.iv := rfl
@[simp] theorem State.withFlags_ie (s : State) (f : Flags) : (s.withFlags f).ie = s.ie := rfl
@[simp] theorem State.withFlags_ip (s : State) (f : Flags) : (s.withFlags f).ip = s.ip := rfl
@[simp] theorem State.withFlags_run (s : State) (f : Flags) : (s.withFlags f).run = s.run := rfl
@[simp] theorem State.withFlags_mem (s : State) (f : Flags) : (s.withFlags f).mem = s.mem := rfl
@[simp] theorem State.withFlags_env (s : State) (f : Flags) : (s.withFlags f).env = s.env := rfl
@[simp] theorem State.withFlags_phys (s : State) (f : Flags) (p : PhysReg) : (s.withFlags f).phys p = s.phys p := rfl
@[simp] theorem State.withFlags_x (s : State) (f : Flags) (i : Reg) : (s.withFlags f).x i = s.x i := rfl

/-! ## `State.advance` -/

@[simp] theorem State.advance_r (s : State) (w : Word) : (s.advance w).r = s.r := rfl
@[simp] theorem State.advance_sh (s : State) (w : Word) : (s.advance w).sh = s.sh := rfl
@[simp] theorem State.advance_alt (s : State) (w : Word) : (s.advance w).alt = s.alt := rfl
@[simp] theorem State.advance_pc (s : State) (w : Word) : (s.advance w).pc = s.pc + w := rfl
@[simp] theorem State.advance_flags (s : State) (w : Word) : (s.advance w).flags = s.flags := rfl
@[simp] theorem State.advance_iv (s : State) (w : Word) : (s.advance w).iv = s.iv := rfl
@[simp] theorem State.advance_ie (s : State) (w : Word) : (s.advance w).ie = s.ie := rfl
@[simp] theorem State.advance_ip (s : State) (w : Word) : (s.advance w).ip = s.ip := rfl
@[simp] theorem State.advance_run (s : State) (w : Word) : (s.advance w).run = s.run := rfl
@[simp] theorem State.advance_mem (s : State) (w : Word) : (s.advance w).mem = s.mem := rfl
@[simp] theorem State.advance_env (s : State) (w : Word) : (s.advance w).env = s.env := rfl
@[simp] theorem State.advance_phys (s : State) (w : Word) (p : PhysReg) : (s.advance w).phys p = s.phys p := rfl
@[simp] theorem State.advance_x (s : State) (w : Word) (i : Reg) : (s.advance w).x i = s.x i := rfl

/-! ## `State.jumpTo` -/

@[simp] theorem State.jumpTo_r (s : State) (a : Word) : (s.jumpTo a).r = s.r := rfl
@[simp] theorem State.jumpTo_sh (s : State) (a : Word) : (s.jumpTo a).sh = s.sh := rfl
@[simp] theorem State.jumpTo_alt (s : State) (a : Word) : (s.jumpTo a).alt = s.alt := rfl
@[simp] theorem State.jumpTo_pc (s : State) (a : Word) : (s.jumpTo a).pc = a := rfl
@[simp] theorem State.jumpTo_flags (s : State) (a : Word) : (s.jumpTo a).flags = s.flags := rfl
@[simp] theorem State.jumpTo_iv (s : State) (a : Word) : (s.jumpTo a).iv = s.iv := rfl
@[simp] theorem State.jumpTo_ie (s : State) (a : Word) : (s.jumpTo a).ie = s.ie := rfl
@[simp] theorem State.jumpTo_ip (s : State) (a : Word) : (s.jumpTo a).ip = s.ip := rfl
@[simp] theorem State.jumpTo_run (s : State) (a : Word) : (s.jumpTo a).run = s.run := rfl
@[simp] theorem State.jumpTo_mem (s : State) (a : Word) : (s.jumpTo a).mem = s.mem := rfl
@[simp] theorem State.jumpTo_env (s : State) (a : Word) : (s.jumpTo a).env = s.env := rfl
@[simp] theorem State.jumpTo_phys (s : State) (a : Word) (p : PhysReg) : (s.jumpTo a).phys p = s.phys p := rfl
@[simp] theorem State.jumpTo_x (s : State) (a : Word) (i : Reg) : (s.jumpTo a).x i = s.x i := rfl

/-! ## `State.irq` -/

@[simp] theorem State.irq_r (s : State) : (s.irq).r = s.r := rfl
@[simp] theorem State.irq_sh (s : State) : (s.irq).sh = s.sh := rfl
@[simp] theorem State.irq_alt (s : State) : (s.irq).alt = s.alt := rfl
@[simp] theorem State.irq_pc (s : State) : (s.irq).pc = s.pc := rfl
@[simp] theorem State.irq_flags (s : State) : (s.irq).flags = s.flags := rfl
@[simp] theorem State.irq_iv (s : State) : (s.irq).iv = s.iv := rfl
@[simp] theorem State.irq_ie (s : State) : (s.irq).ie = s.ie := rfl
@[simp] theorem State.irq_ip (s : State) : (s.irq).ip = true := rfl
@[simp] theorem State.irq_run (s : State) : (s.irq).run = s.run := rfl
@[simp] theorem State.irq_mem (s : State) : (s.irq).mem = s.mem := rfl
@[simp] theorem State.irq_env (s : State) : (s.irq).env = s.env := rfl
@[simp] theorem State.irq_phys (s : State) (p : PhysReg) : (s.irq).phys p = s.phys p := rfl
@[simp] theorem State.irq_x (s : State) (i : Reg) : (s.irq).x i = s.x i := rfl

/-! ## `State.emit` -/

@[simp] theorem State.emit_r (s : State) (o : Output) : (s.emit o).r = s.r := rfl
@[simp] theorem State.emit_sh (s : State) (o : Output) : (s.emit o).sh = s.sh := rfl
@[simp] theorem State.emit_alt (s : State) (o : Output) : (s.emit o).alt = s.alt := rfl
@[simp] theorem State.emit_pc (s : State) (o : Output) : (s.emit o).pc = s.pc := rfl
@[simp] theorem State.emit_flags (s : State) (o : Output) : (s.emit o).flags = s.flags := rfl
@[simp] theorem State.emit_iv (s : State) (o : Output) : (s.emit o).iv = s.iv := rfl
@[simp] theorem State.emit_ie (s : State) (o : Output) : (s.emit o).ie = s.ie := rfl
@[simp] theorem State.emit_ip (s : State) (o : Output) : (s.emit o).ip = s.ip := rfl
@[simp] theorem State.emit_run (s : State) (o : Output) : (s.emit o).run = s.run := rfl
@[simp] theorem State.emit_mem (s : State) (o : Output) : (s.emit o).mem = s.mem := rfl
@[simp] theorem State.emit_env (s : State) (o : Output) : (s.emit o).env = { s.env with outputs := s.env.outputs ++ [o] } := rfl
@[simp] theorem State.emit_phys (s : State) (o : Output) (p : PhysReg) : (s.emit o).phys p = s.phys p := rfl
@[simp] theorem State.emit_x (s : State) (o : Output) (i : Reg) : (s.emit o).x i = s.x i := rfl

/-! ## `State.callReadHandler` -/

@[simp] theorem State.callReadHandler_r (s : State) (n : PortNo) : (s.callReadHandler n).r = s.r := rfl
@[simp] theorem State.callReadHandler_sh (s : State) (n : PortNo) : (s.callReadHandler n).sh = s.sh := rfl
@[simp] theorem State.callReadHandler_alt (s : State) (n : PortNo) : (s.callReadHandler n).alt = s.alt := rfl
@[simp] theorem State.callReadHandler_pc (s : State) (n : PortNo) : (s.callReadHandler n).pc = s.pc := rfl
@[simp] theorem State.callReadHandler_flags (s : State) (n : PortNo) : (s.callReadHandler n).flags = s.flags := rfl
@[simp] theorem State.callReadHandler_iv (s : State) (n : PortNo) : (s.callReadHandler n).iv = s.iv := rfl
@[simp] theorem State.callReadHandler_ie (s : State) (n : PortNo) : (s.callReadHandler n).ie = s.ie := rfl
@[simp] theorem State.callReadHandler_ip (s : State) (n : PortNo) : (s.callReadHandler n).ip = s.ip := rfl
@[simp] theorem State.callReadHandler_run (s : State) (n : PortNo) : (s.callReadHandler n).run = s.run := rfl
@[simp] theorem State.callReadHandler_mem (s : State) (n : PortNo) : (s.callReadHandler n).mem = s.mem := rfl
@[simp] theorem State.callReadHandler_phys (s : State) (n : PortNo) (p : PhysReg) : (s.callReadHandler n).phys p = s.phys p := rfl
@[simp] theorem State.callReadHandler_x (s : State) (n : PortNo) (i : Reg) : (s.callReadHandler n).x i = s.x i := rfl

/-! ## Updates of one field leave what the registers hold -/

@[simp] theorem State.phys_with_pc (s : State) (v : Word) (p : PhysReg) : ({ s with pc := v } : State).phys p = s.phys p := rfl
@[simp] theorem State.x_with_pc (s : State) (v : Word) (i : Reg) : ({ s with pc := v } : State).x i = s.x i := rfl
@[simp] theorem State.phys_with_flags (s : State) (v : Flags) (p : PhysReg) : ({ s with flags := v } : State).phys p = s.phys p := rfl
@[simp] theorem State.x_with_flags (s : State) (v : Flags) (i : Reg) : ({ s with flags := v } : State).x i = s.x i := rfl
@[simp] theorem State.phys_with_iv (s : State) (v : Word) (p : PhysReg) : ({ s with iv := v } : State).phys p = s.phys p := rfl
@[simp] theorem State.x_with_iv (s : State) (v : Word) (i : Reg) : ({ s with iv := v } : State).x i = s.x i := rfl
@[simp] theorem State.phys_with_ie (s : State) (v : Bool) (p : PhysReg) : ({ s with ie := v } : State).phys p = s.phys p := rfl
@[simp] theorem State.x_with_ie (s : State) (v : Bool) (i : Reg) : ({ s with ie := v } : State).x i = s.x i := rfl
@[simp] theorem State.phys_with_ip (s : State) (v : Bool) (p : PhysReg) : ({ s with ip := v } : State).phys p = s.phys p := rfl
@[simp] theorem State.x_with_ip (s : State) (v : Bool) (i : Reg) : ({ s with ip := v } : State).x i = s.x i := rfl
@[simp] theorem State.phys_with_run (s : State) (v : RunState) (p : PhysReg) : ({ s with run := v } : State).phys p = s.phys p := rfl
@[simp] theorem State.x_with_run (s : State) (v : RunState) (i : Reg) : ({ s with run := v } : State).x i = s.x i := rfl
@[simp] theorem State.phys_with_mem (s : State) (v : Memory) (p : PhysReg) : ({ s with mem := v } : State).phys p = s.phys p := rfl
@[simp] theorem State.x_with_mem (s : State) (v : Memory) (i : Reg) : ({ s with mem := v } : State).x i = s.x i := rfl
@[simp] theorem State.phys_with_env (s : State) (v : Env) (p : PhysReg) : ({ s with env := v } : State).phys p = s.phys p := rfl
@[simp] theorem State.x_with_env (s : State) (v : Env) (i : Reg) : ({ s with env := v } : State).x i = s.x i := rfl

/-! ## `State.setPhys` and `State.setX` -/

@[simp] theorem State.setPhys_alt (s : State) (p : PhysReg) (v : Word) : (s.setPhys p v).alt = s.alt := by
  cases p <;> rfl
@[simp] theorem State.setX_alt (s : State) (i : Reg) (v : Word) : (s.setX i v).alt = s.alt := by
  unfold State.setX; split <;> simp
@[simp] theorem State.setPhys_pc (s : State) (p : PhysReg) (v : Word) : (s.setPhys p v).pc = s.pc := by
  cases p <;> rfl
@[simp] theorem State.setX_pc (s : State) (i : Reg) (v : Word) : (s.setX i v).pc = s.pc := by
  unfold State.setX; split <;> simp
@[simp] theorem State.setPhys_flags (s : State) (p : PhysReg) (v : Word) : (s.setPhys p v).flags = s.flags := by
  cases p <;> rfl
@[simp] theorem State.setX_flags (s : State) (i : Reg) (v : Word) : (s.setX i v).flags = s.flags := by
  unfold State.setX; split <;> simp
@[simp] theorem State.setPhys_iv (s : State) (p : PhysReg) (v : Word) : (s.setPhys p v).iv = s.iv := by
  cases p <;> rfl
@[simp] theorem State.setX_iv (s : State) (i : Reg) (v : Word) : (s.setX i v).iv = s.iv := by
  unfold State.setX; split <;> simp
@[simp] theorem State.setPhys_ie (s : State) (p : PhysReg) (v : Word) : (s.setPhys p v).ie = s.ie := by
  cases p <;> rfl
@[simp] theorem State.setX_ie (s : State) (i : Reg) (v : Word) : (s.setX i v).ie = s.ie := by
  unfold State.setX; split <;> simp
@[simp] theorem State.setPhys_ip (s : State) (p : PhysReg) (v : Word) : (s.setPhys p v).ip = s.ip := by
  cases p <;> rfl
@[simp] theorem State.setX_ip (s : State) (i : Reg) (v : Word) : (s.setX i v).ip = s.ip := by
  unfold State.setX; split <;> simp
@[simp] theorem State.setPhys_run (s : State) (p : PhysReg) (v : Word) : (s.setPhys p v).run = s.run := by
  cases p <;> rfl
@[simp] theorem State.setX_run (s : State) (i : Reg) (v : Word) : (s.setX i v).run = s.run := by
  unfold State.setX; split <;> simp
@[simp] theorem State.setPhys_mem (s : State) (p : PhysReg) (v : Word) : (s.setPhys p v).mem = s.mem := by
  cases p <;> rfl
@[simp] theorem State.setX_mem (s : State) (i : Reg) (v : Word) : (s.setX i v).mem = s.mem := by
  unfold State.setX; split <;> simp
@[simp] theorem State.setPhys_env (s : State) (p : PhysReg) (v : Word) : (s.setPhys p v).env = s.env := by
  cases p <;> rfl
@[simp] theorem State.setX_env (s : State) (i : Reg) (v : Word) : (s.setX i v).env = s.env := by
  unfold State.setX; split <;> simp

end Sys2Proof.Machine
end

