-- ==== Sys2Proof/Laws/Registers.lean ====
section
/-! SUPPORT. The register file: read after write, index 0, and which physical register an index names. -/

namespace Sys2Proof.Machine

@[simp] theorem State.x_zero (s : State) : s.x 0#4 = 0x0000#16 := rfl

@[simp] theorem State.setX_zero (s : State) (v : Word) : s.setX 0#4 v = s := rfl

theorem State.phys_setPhys_same (s : State) (p : PhysReg) (v : Word) : (s.setPhys p v).phys p = v := by
  cases p <;> simp [State.setPhys, State.phys]

theorem State.phys_setPhys_other (s : State) {p q : PhysReg} (v : Word) (h : q ≠ p) :
    (s.setPhys p v).phys q = s.phys q := by
  cases p <;> cases q <;> simp only [State.setPhys, State.phys]
  · exact Vector.getElem_set_ne _ _ fun e => h (by rw [BitVec.eq_of_toNat_eq e])
  · exact Vector.getElem_set_ne _ _ fun e => h (by rw [BitVec.eq_of_toNat_eq e])

/-- Two indices never name the same physical register. -/
theorem physOf_injective : ∀ (alt : Bool) (i j : Reg), physOf alt i = physOf alt j → i = j := by decide

/-- Index 0 names `R[0]` in both banks, and no other index does. -/
theorem physOf_eq_zero : ∀ (alt : Bool) (i : Reg), physOf alt i = .primary 0#4 → i = 0#4 := by decide

theorem State.x_of_ne_zero (s : State) {i : Reg} (h : i ≠ 0#4) : s.x i = s.phys (physOf s.alt i) := by
  simp [State.x, h]

theorem State.setX_of_ne_zero (s : State) {i : Reg} (v : Word) (h : i ≠ 0#4) :
    s.setX i v = s.setPhys (physOf s.alt i) v := by
  simp [State.setX, h]

/-- Reading the register just written (10_state.md R23, R24). -/
theorem State.x_setX_same (s : State) {i : Reg} (v : Word) (h : i ≠ 0#4) : (s.setX i v).x i = v := by
  rw [State.x_of_ne_zero _ h, State.setX_alt, State.setX_of_ne_zero _ _ h, State.phys_setPhys_same]

/-- Every other index reads as before. -/
theorem State.x_setX_other (s : State) {i j : Reg} (v : Word) (h : j ≠ i) : (s.setX i v).x j = s.x j := by
  by_cases hi : i = 0#4
  · subst hi; rfl
  by_cases hj : j = 0#4
  · subst hj; rfl
  rw [State.x_of_ne_zero _ hj, State.x_of_ne_zero _ hj, State.setX_alt, State.setX_of_ne_zero _ _ hi]
  exact State.phys_setPhys_other s v fun e => h (physOf_injective _ _ _ e)

/-- Every physical register but the one the index names is kept, the other bank's included (R24). -/
theorem State.phys_setX_other (s : State) {i : Reg} {p : PhysReg} (v : Word) (h : i ≠ 0#4 → p ≠ physOf s.alt i) :
    (s.setX i v).phys p = s.phys p := by
  by_cases hi : i = 0#4
  · subst hi; rfl
  · rw [State.setX_of_ne_zero _ _ hi]; exact State.phys_setPhys_other s v (h hi)

/-- The storage of `R[0]` is never written. -/
@[simp] theorem State.phys_zero_setX (s : State) (i : Reg) (v : Word) :
    (s.setX i v).phys (.primary 0#4) = s.phys (.primary 0#4) :=
  State.phys_setX_other s v fun hi e => hi (physOf_eq_zero _ _ e.symm)

end Sys2Proof.Machine
end

