-- ==== Sys2Proof/Laws/Block.lean ====
section
/-! SUPPORT. What one element of a block operation does, and what the repeated element does. -/

namespace Sys2Proof.Machine

/-- Everything outside the registers in `written`, the memory and `pc` is as before: what a block element leaves alone. -/
structure BlockFrame (written : List Reg) (s t : State) : Prop where
  alt : t.alt = s.alt
  pc : t.pc = s.pc
  flags : t.flags = s.flags
  iv : t.iv = s.iv
  ie : t.ie = s.ie
  ip : t.ip = s.ip
  run : t.run = s.run
  env : t.env = s.env
  phys : ∀ p, (∀ i ∈ written, p ≠ physOf s.alt i) → t.phys p = s.phys p

theorem BlockFrame.refl (written : List Reg) (s : State) : BlockFrame written s s :=
  ⟨rfl, rfl, rfl, rfl, rfl, rfl, rfl, rfl, fun _ _ => rfl⟩

theorem BlockFrame.trans {written : List Reg} {s t u : State} (h : BlockFrame written s t) (k : BlockFrame written t u) :
    BlockFrame written s u :=
  ⟨k.alt.trans h.alt, k.pc.trans h.pc, k.flags.trans h.flags, k.iv.trans h.iv, k.ie.trans h.ie, k.ip.trans h.ip,
    k.run.trans h.run, k.env.trans h.env, fun p hp => (k.phys p (by rw [h.alt]; exact hp)).trans (h.phys p hp)⟩

/-- A register outside the written ones reads as before. -/
theorem BlockFrame.x {written : List Reg} {s t : State} (h : BlockFrame written s t) {i : Reg} (hi : i ∉ written) :
    t.x i = s.x i := by
  by_cases h0 : i = 0#4
  · subst h0; rfl
  · rw [State.x_of_ne_zero _ h0, State.x_of_ne_zero _ h0, h.alt]
    exact h.phys _ fun j hj e => hi (physOf_injective _ _ _ e ▸ hj)

/-! ## One element -/

/-- One copied byte: the byte, both pointers, the count (44_block.md R263, R264). -/
theorem copyElement_spec (dir : Word) (s : State) :
    (copyElement dir s).mem = s.mem.write (s.x regDest) (s.mem.read (s.x regSource)) ∧
    (copyElement dir s).x regCount = s.x regCount - 1#16 ∧
    (copyElement dir s).x regSource = s.x regSource + dir ∧
    (copyElement dir s).x regDest = s.x regDest + dir ∧
    BlockFrame [regCount, regSource, regDest] s (copyElement dir s) := by
  refine ⟨by simp [copyElement], ?_, ?_, ?_, ?_⟩
  · simp only [copyElement]; rw [State.x_setX_same _ _ (by decide)]
  · simp only [copyElement]
    rw [State.x_setX_other _ _ (by decide), State.x_setX_other _ _ (by decide), State.x_setX_same _ _ (by decide)]
  · simp only [copyElement]
    rw [State.x_setX_other _ _ (by decide), State.x_setX_same _ _ (by decide)]
  · constructor <;> try simp [copyElement]
    intro p h4 h5 h6
    rw [State.phys_setX_other _ _ (fun _ => by simpa using h4), State.phys_setX_other _ _ (fun _ => by simpa using h6),
      State.phys_setX_other _ _ (fun _ => by simpa using h5)]
    simp

/-- One filled byte: the byte, the pointer, the count (R268). -/
theorem fillElement_spec (s : State) :
    (fillElement s).mem = s.mem.write (s.x regDest) (lowByte (s.x regKey)) ∧
    (fillElement s).x regCount = s.x regCount - 1#16 ∧
    (fillElement s).x regDest = s.x regDest + 1#16 ∧
    BlockFrame [regCount, regDest] s (fillElement s) := by
  refine ⟨by simp [fillElement], ?_, ?_, ?_⟩
  · simp only [fillElement]; rw [State.x_setX_same _ _ (by decide)]
  · simp only [fillElement]
    rw [State.x_setX_other _ _ (by decide), State.x_setX_same _ _ (by decide)]
  · constructor <;> try simp [fillElement]
    intro p h4 h6
    rw [State.phys_setX_other _ _ (fun _ => by simpa using h4), State.phys_setX_other _ _ (fun _ => by simpa using h6)]
    simp

/-- One searched byte: the pointer and the count, no memory (R267). -/
theorem searchAdvance_spec (s : State) :
    (searchAdvance s).mem = s.mem ∧
    (searchAdvance s).x regCount = s.x regCount - 1#16 ∧
    (searchAdvance s).x regSource = s.x regSource + 1#16 ∧
    BlockFrame [regCount, regSource] s (searchAdvance s) := by
  refine ⟨by simp [searchAdvance], ?_, ?_, ?_⟩
  · simp only [searchAdvance]; rw [State.x_setX_same _ _ (by decide)]
  · simp only [searchAdvance]
    rw [State.x_setX_other _ _ (by decide), State.x_setX_same _ _ (by decide)]
  · constructor <;> try simp [searchAdvance]
    intro p h4 h5
    rw [State.phys_setX_other _ _ (fun _ => by simpa using h4), State.phys_setX_other _ _ (fun _ => by simpa using h5)]

/-! ## The repeated element -/

/-- Memory after `n` bytes are copied one at a time, pointers moving by `dir`. -/
def copyMemory (dir : Word) : Nat → Word → Word → Memory → Memory
  | 0, _, _, m => m
  | n + 1, src, dst, m => copyMemory dir n (src + dir) (dst + dir) (m.write dst (m.read src))

/-- Memory after `n` bytes are filled upward. -/
def fillMemory (v : Byte) : Nat → Word → Memory → Memory
  | 0, _, m => m
  | n + 1, dst, m => fillMemory v n (dst + 1#16) (m.write dst v)

theorem stepped_succ (dir a : Word) (n : Nat) : a + dir + BitVec.ofNat 16 n * dir = a + BitVec.ofNat 16 (n + 1) * dir := by
  rw [show BitVec.ofNat 16 (n + 1) = BitVec.ofNat 16 n + 1#16 from by simp [BitVec.ofNat_add], BitVec.add_mul]
  rw [BitVec.one_mul, BitVec.add_assoc, BitVec.add_comm dir]

theorem counted_succ (a : Word) (n : Nat) : a - 1#16 - BitVec.ofNat 16 n = a - BitVec.ofNat 16 (n + 1) := by
  rw [show BitVec.ofNat 16 (n + 1) = BitVec.ofNat 16 n + 1#16 from by simp [BitVec.ofNat_add]]
  bv_omega

/-- All that `n` copied elements do. -/
theorem repeatElement_copy (dir : Word) (n : Nat) : ∀ s : State,
    (repeatElement (copyElement dir) n s).mem = copyMemory dir n (s.x regSource) (s.x regDest) s.mem ∧
    (repeatElement (copyElement dir) n s).x regCount = s.x regCount - BitVec.ofNat 16 n ∧
    (repeatElement (copyElement dir) n s).x regSource = s.x regSource + BitVec.ofNat 16 n * dir ∧
    (repeatElement (copyElement dir) n s).x regDest = s.x regDest + BitVec.ofNat 16 n * dir ∧
    BlockFrame [regCount, regSource, regDest] s (repeatElement (copyElement dir) n s) := by
  induction n with
  | zero => intro s; simp [repeatElement, copyMemory, BlockFrame.refl]
  | succ n ih =>
    intro s
    obtain ⟨hm, h4, h5, h6, hf⟩ := copyElement_spec dir s
    obtain ⟨im, i4, i5, i6, ifr⟩ := ih (copyElement dir s)
    refine ⟨?_, ?_, ?_, ?_, hf.trans ifr⟩
    · rw [repeatElement, im, hm, h5, h6]; rfl
    · rw [repeatElement, i4, h4, counted_succ]
    · rw [repeatElement, i5, h5, stepped_succ]
    · rw [repeatElement, i6, h6, stepped_succ]

/-- All that `n` filled elements do. -/
theorem repeatElement_fill (n : Nat) : ∀ s : State,
    (repeatElement fillElement n s).mem = fillMemory (lowByte (s.x regKey)) n (s.x regDest) s.mem ∧
    (repeatElement fillElement n s).x regCount = s.x regCount - BitVec.ofNat 16 n ∧
    (repeatElement fillElement n s).x regDest = s.x regDest + BitVec.ofNat 16 n ∧
    BlockFrame [regCount, regDest] s (repeatElement fillElement n s) := by
  induction n with
  | zero => intro s; simp [repeatElement, fillMemory, BlockFrame.refl]
  | succ n ih =>
    intro s
    obtain ⟨hm, h4, h6, hf⟩ := fillElement_spec s
    obtain ⟨im, i4, i6, ifr⟩ := ih (fillElement s)
    refine ⟨?_, ?_, ?_, hf.trans ifr⟩
    · rw [repeatElement, im, hm, h6, hf.x (by decide)]; rfl
    · rw [repeatElement, i4, h4, counted_succ]
    · have := stepped_succ 1#16 (s.x regDest) n
      rw [repeatElement, i6, h6]; simpa using this

/-! ## Canonical form -/

theorem wf_copyMemory (dir : Word) (n : Nat) : ∀ (src dst : Word) {m : Memory}, m.wf → (copyMemory dir n src dst m).wf := by
  induction n with
  | zero => exact fun _ _ _ h => h
  | succ n ih => exact fun src dst _ h => ih _ _ (Memory.wf_write dst _ h)

theorem wf_fillMemory (v : Byte) (n : Nat) : ∀ (dst : Word) {m : Memory}, m.wf → (fillMemory v n dst m).wf := by
  induction n with
  | zero => exact fun _ _ h => h
  | succ n ih => exact fun dst _ h => ih _ (Memory.wf_write dst v h)

/-- The search changes no memory and only its two registers (R267). -/
theorem searchLoop_frame (n : Nat) : ∀ s : State,
    (searchLoop n s).1.mem = s.mem ∧ BlockFrame [regCount, regSource] s (searchLoop n s).1 := by
  induction n with
  | zero => intro s; exact ⟨rfl, BlockFrame.refl _ _⟩
  | succ n ih =>
    intro s
    obtain ⟨hm, -, -, hf⟩ := searchAdvance_spec s
    unfold searchLoop
    split
    · exact ⟨hm, hf⟩
    · obtain ⟨im, ifr⟩ := ih (searchAdvance s)
      exact ⟨im.trans hm, hf.trans ifr⟩

end Sys2Proof.Machine
end

