-- ==== Sys2Proof/Laws/Decode.lean ====
section
/-! SUPPORT. The fields of a word put together give the word back, and the word its fields. -/

namespace Sys2Proof

section
variable (a b c d : Nibble) (e : BitVec 8) (f : BitVec 12)

@[simp] theorem nib3_ofNibbles : nib3 (ofNibbles a b c d) = a := by
  apply BitVec.eq_of_getLsbD_eq; intro i hi
  have h1 : ¬ 12 + i < 4 := by omega
  simp only [nib3, ofNibbles, BitVec.getLsbD_extractLsb', BitVec.getLsbD_append, hi, decide_true, Bool.true_and, h1, if_false,
    show ¬ 12 + i - 4 < 4 by omega, show ¬ 12 + i - 4 - 4 < 4 by omega]
  congr 1; omega

@[simp] theorem nib2_ofNibbles : nib2 (ofNibbles a b c d) = b := by
  apply BitVec.eq_of_getLsbD_eq; intro i hi
  simp only [nib2, ofNibbles, BitVec.getLsbD_extractLsb', BitVec.getLsbD_append, hi, decide_true, Bool.true_and,
    show ¬ 8 + i < 4 by omega, show ¬ 8 + i - 4 < 4 by omega, show 8 + i - 4 - 4 < 4 by omega, if_false, if_true]
  congr 1; omega

@[simp] theorem nib1_ofNibbles : nib1 (ofNibbles a b c d) = c := by
  apply BitVec.eq_of_getLsbD_eq; intro i hi
  simp only [nib1, ofNibbles, BitVec.getLsbD_extractLsb', BitVec.getLsbD_append, hi, decide_true, Bool.true_and,
    show ¬ 4 + i < 4 by omega, show 4 + i - 4 < 4 by omega, if_false, if_true]
  congr 1; omega

@[simp] theorem nib0_ofNibbles : nib0 (ofNibbles a b c d) = d := by
  apply BitVec.eq_of_getLsbD_eq; intro i hi
  simp only [nib0, ofNibbles, BitVec.getLsbD_extractLsb', BitVec.getLsbD_append, hi, decide_true, Bool.true_and,
    show 0 + i < 4 by omega, if_true]
  congr 1; omega

@[simp] theorem nib3_ofByte : nib3 (ofByte a b e) = a := by
  apply BitVec.eq_of_getLsbD_eq; intro i hi
  simp only [nib3, ofByte, BitVec.getLsbD_extractLsb', BitVec.getLsbD_append, hi, decide_true, Bool.true_and,
    show ¬ 12 + i < 8 by omega, show ¬ 12 + i - 8 < 4 by omega, if_false]
  congr 1; omega

@[simp] theorem nib2_ofByte : nib2 (ofByte a b e) = b := by
  apply BitVec.eq_of_getLsbD_eq; intro i hi
  simp only [nib2, ofByte, BitVec.getLsbD_extractLsb', BitVec.getLsbD_append, hi, decide_true, Bool.true_and,
    show ¬ 8 + i < 8 by omega, show 8 + i - 8 < 4 by omega, if_false, if_true]
  congr 1; omega

@[simp] theorem low8_ofByte : low8 (ofByte a b e) = e := by
  apply BitVec.eq_of_getLsbD_eq; intro i hi
  simp only [low8, ofByte, BitVec.getLsbD_extractLsb', BitVec.getLsbD_append, hi, decide_true, Bool.true_and,
    show 0 + i < 8 by omega, if_true]
  congr 1; omega

@[simp] theorem nib3_jumpWord : nib3 (a ++ f) = a := by
  apply BitVec.eq_of_getLsbD_eq; intro i hi
  simp only [nib3, BitVec.getLsbD_extractLsb', BitVec.getLsbD_append, hi, decide_true, Bool.true_and,
    show ¬ 12 + i < 12 by omega, if_false]
  congr 1; omega

@[simp] theorem low12_jumpWord : low12 (a ++ f) = f := by
  apply BitVec.eq_of_getLsbD_eq; intro i hi
  simp only [low12, BitVec.getLsbD_extractLsb', BitVec.getLsbD_append, hi, decide_true, Bool.true_and,
    show 0 + i < 12 by omega, if_true]
  congr 1; omega

end

/-- A word is its four nibbles. -/
theorem ofNibbles_nibs (w : Word) : ofNibbles (nib3 w) (nib2 w) (nib1 w) (nib0 w) = w := by
  apply BitVec.eq_of_getLsbD_eq; intro i hi
  simp only [nib3, nib2, nib1, nib0, ofNibbles, BitVec.getLsbD_extractLsb', BitVec.getLsbD_append]
  split
  · next h => simp [h]
  · split
    · next h1 h => simp only [h, decide_true, Bool.true_and]; congr 1; omega
    · split
      · next h1 h2 h => simp only [h, decide_true, Bool.true_and]; congr 1; omega
      · next h1 h2 h =>
        simp only [show i - 4 - 4 - 4 < 4 by omega, decide_true, Bool.true_and]; congr 1; omega

/-- A word is its two high nibbles and its low byte. -/
theorem ofByte_nibs (w : Word) : ofByte (nib3 w) (nib2 w) (low8 w) = w := by
  apply BitVec.eq_of_getLsbD_eq; intro i hi
  simp only [nib3, nib2, low8, ofByte, BitVec.getLsbD_extractLsb', BitVec.getLsbD_append]
  split
  · next h => simp [h]
  · split
    · next h1 h => simp only [h, decide_true, Bool.true_and]; congr 1; omega
    · next h1 h => simp only [show i - 8 - 4 < 4 by omega, decide_true, Bool.true_and]; congr 1; omega

/-- A word is its opcode nibble and its low twelve bits. -/
theorem jumpWord_nibs (w : Word) : nib3 w ++ low12 w = w := by
  apply BitVec.eq_of_getLsbD_eq; intro i hi
  simp only [nib3, low12, BitVec.getLsbD_extractLsb', BitVec.getLsbD_append]
  split
  · next h => simp [h]
  · next h => simp only [show i - 12 < 4 by omega, decide_true, Bool.true_and]; congr 1; omega

/-- Numbering the conditions and naming the numbers agree (R101). -/
@[simp] theorem condOf_code (c : Cond) : condOf c.code = c := by cases c <;> rfl

theorem code_condOf : ∀ n : Nibble, (condOf n).code = n := by decide

end Sys2Proof
end

