-- ==== Sys2Proof/Laws/Ops.lean ====
section
/-! SUPPORT. For each shared operation, all that it can do, said once: provers cite these instead of unfolding it. -/

namespace Sys2Proof.Machine

/-! ## Raising a fault and committing -/

/-- Raising a fault always answers a next state: the old one with `run` and the report (60_exceptions.md R312). -/
theorem raise_eq (kind : FaultKind) (info : Word) (s : State) :
    raise kind info s = .next { s.emit (.fault kind s.pc info) with run := .faulted kind s.pc } := rfl

@[simp] theorem commitOrMemFault_some (a : Word) (s t : State) : commitOrMemFault a s (some t) = .next t := rfl

@[simp] theorem commitOrMemFault_none (a : Word) (s : State) :
    commitOrMemFault a s none = raise .memOutOfRange a s := rfl

@[simp] theorem commitOrPortFault_some (a : Word) (s t : State) : commitOrPortFault a s (some t) = .next t := rfl

@[simp] theorem commitOrPortFault_none (a : Word) (s : State) :
    commitOrPortFault a s none = raise .portOutOfRange a s := rfl

/-! ## The stack -/

theorem sub_two_eq_top (a : Word) : a - 2#16 = 0xFFFF#16 ↔ a = 0x0001#16 := by
  constructor
  · intro h
    have h' : a - 2#16 + 2#16 = 0xFFFF#16 + 2#16 := by rw [h]
    simpa [BitVec.sub_add_cancel] using h'
  · rintro rfl; rfl

/-- A push is out of range exactly when `SP` is 1 (43_loadstore.md R250). -/
theorem push16_eq_none (v : Word) (s : State) : push16 v s = none ↔ s.x regSP = 0x0001#16 := by
  rw [← sub_two_eq_top]
  unfold push16
  by_cases h : s.x regSP - 2#16 = 0xFFFF#16
  · simp [h]
  · simp [Memory.writeWord_of_ne _ _ h, h]

/-- What a push leaves: the two bytes below the old `SP`, the new `SP`, everything else kept. -/
theorem push16_some {v : Word} {s t : State} (h : push16 v s = some t) :
    ∃ m, s.mem.writeWord (s.x regSP - 2#16) v = some m ∧ t = { s with mem := m }.setX regSP (s.x regSP - 2#16) := by
  unfold push16 at h
  split at h
  · next m hm => exact ⟨m, hm, by simpa using h.symm⟩
  · cases h

/-- A pop is out of range exactly when `SP` is 0xFFFF (R251). -/
theorem pop16_eq_none (s : State) : pop16 s = none ↔ s.x regSP = 0xFFFF#16 := by
  unfold pop16
  by_cases h : s.x regSP = 0xFFFF#16
  · simp [h]
  · simp [Memory.readWord_of_ne _ h, h]

/-- What a pop answers: the word at `SP`, and the state with `SP` moved. -/
theorem pop16_some {s t : State} {v : Word} (h : pop16 s = some (v, t)) :
    s.mem.readWord (s.x regSP) = some v ∧ t = s.setX regSP (s.x regSP + 2#16) := by
  unfold pop16 at h
  split at h
  · next w hw => cases h; exact ⟨hw, rfl⟩
  · cases h

/-! ## Interrupts -/

/-- Entering the vector is out of range exactly when the push is (60_exceptions.md R320, R322). -/
theorem enterVector_eq_none (ret : Word) (s : State) : enterVector ret s = none ↔ s.x regSP = 0x0001#16 := by
  rw [← push16_eq_none ret]
  unfold enterVector
  split <;> simp_all

/-- What entering the vector leaves: a push, then `IE` clear and `pc` at `IV`. -/
theorem enterVector_some {ret : Word} {s t : State} (h : enterVector ret s = some t) :
    ∃ u, push16 ret s = some u ∧ t = { u with ie := false, pc := u.iv } := by
  unfold enterVector at h
  split at h
  · next u hu => exact ⟨u, hu, by simpa using h.symm⟩
  · cases h

/-- A return is out of range exactly when the pop is (R325). -/
theorem returnFromInterrupt_eq_none (s : State) : returnFromInterrupt s = none ↔ s.x regSP = 0xFFFF#16 := by
  rw [← pop16_eq_none]
  unfold returnFromInterrupt
  split <;> simp_all

/-- What a return leaves: a pop into `pc`, and `IE` set. -/
theorem returnFromInterrupt_some {s t : State} (h : returnFromInterrupt s = some t) :
    ∃ v u, pop16 s = some (v, u) ∧ t = { u with ie := true, pc := v } := by
  unfold returnFromInterrupt at h
  split at h
  · next v u hu => exact ⟨v, u, hu, by simpa using h.symm⟩
  · cases h

/-- Interrupt entry answers a next state: the vector entered with `IP` clear, or the push's fault. -/
theorem interruptEntry_cases (s : State) :
    (∃ t, enterVector s.pc s = some t ∧ interruptEntry s = .next { t with ip := false }) ∨
    (s.x regSP = 0x0001#16 ∧ interruptEntry s = raise .memOutOfRange 0xFFFF#16 s) := by
  unfold interruptEntry
  cases h : enterVector s.pc s with
  | none => exact .inr ⟨(enterVector_eq_none _ s).mp h, by simp⟩
  | some t => exact .inl ⟨t, rfl, by simp⟩

/-! ## Ports -/

/-- A port read in range: unmapped reads as zero and changes nothing, mapped is one handler call (20_memory.md R69). -/
theorem portRead_of_le {p : Word} {s : State} (h : p.toNat ≤ 255) :
    portRead p s = if p.setWidth 8 ∈ s.env.readPorts then some (s.env.answer, s.callReadHandler (p.setWidth 8))
      else some (0x00#8, s) := by
  simp [portRead, Nat.not_lt.mpr h]

theorem portRead_eq_none (p : Word) (s : State) : portRead p s = none ↔ 255 < p.toNat := by
  unfold portRead
  split
  · simpa
  · split <;> simp_all

/-- A port write in range: unmapped is discarded, mapped is one handler call (R70). -/
theorem portWrite_of_le {p : Word} {v : Byte} {s : State} (h : p.toNat ≤ 255) :
    portWrite p v s = if p.setWidth 8 ∈ s.env.writePorts then some (s.emit (.portWrite (p.setWidth 8) v))
      else some s := by
  simp [portWrite, Nat.not_lt.mpr h]

theorem portWrite_eq_none (p : Word) (v : Byte) (s : State) : portWrite p v s = none ↔ 255 < p.toNat := by
  unfold portWrite
  split
  · simpa
  · split <;> simp_all

/-! ## The events of a boundary -/

/-- Delivering the boundary's events takes one entry off the list and may set `IP`; nothing else changes. -/
theorem State.deliver_eq (s : State) :
    s.deliver = { s with ip := s.ip || s.env.irqs.headD false, env := { s.env with irqs := s.env.irqs.tail } } := by
  rcases s with ⟨r, sh, alt, pc, flags, iv, ie, ip, run, mem, ⟨rp, wp, answers, reads, irqs, outputs⟩⟩
  rcases irqs with _ | ⟨_ | _, rest⟩ <;> simp [State.deliver, State.irq]

end Sys2Proof.Machine
end

