-- ==== Sys2Proof/Laws/PerInstr.lean ====
section
/-! SUPPORT. Statements made per instruction, one lemma per constructor of `Instr`. -/

namespace Sys2Proof.Laws

/-- The length rule (30_encoding.md R90): one word without the 0xF prefix, or two words the first of which has it. -/
def EncodedLength.Statement (i : Instr) : Prop :=
  (∃ w0, encode i = [w0] ∧ isExtended w0 = false) ∨ (∃ w0 w1, encode i = [w0, w1] ∧ isExtended w0 = true)

theorem EncodedLength.add (rd rs1 rs2 : Reg) : EncodedLength.Statement (.add rd rs1 rs2) :=
  .inl ⟨_, rfl, by simp [isExtended]⟩
theorem EncodedLength.sub (rd rs1 rs2 : Reg) : EncodedLength.Statement (.sub rd rs1 rs2) :=
  .inl ⟨_, rfl, by simp [isExtended]⟩
theorem EncodedLength.and (rd rs1 rs2 : Reg) : EncodedLength.Statement (.and rd rs1 rs2) :=
  .inl ⟨_, rfl, by simp [isExtended]⟩
theorem EncodedLength.or (rd rs1 rs2 : Reg) : EncodedLength.Statement (.or rd rs1 rs2) :=
  .inl ⟨_, rfl, by simp [isExtended]⟩
theorem EncodedLength.xor (rd rs1 rs2 : Reg) : EncodedLength.Statement (.xor rd rs1 rs2) :=
  .inl ⟨_, rfl, by simp [isExtended]⟩
theorem EncodedLength.addi (rd : Reg) (imm : BitVec 8) : EncodedLength.Statement (.addi rd imm) :=
  .inl ⟨_, rfl, by simp [isExtended]⟩
theorem EncodedLength.lw (rd rs : Reg) : EncodedLength.Statement (.lw rd rs) :=
  .inl ⟨_, rfl, by simp [isExtended]⟩
theorem EncodedLength.lb (rd rs : Reg) : EncodedLength.Statement (.lb rd rs) :=
  .inl ⟨_, rfl, by simp [isExtended]⟩
theorem EncodedLength.lbu (rd rs : Reg) : EncodedLength.Statement (.lbu rd rs) :=
  .inl ⟨_, rfl, by simp [isExtended]⟩
theorem EncodedLength.sw (rd rs : Reg) : EncodedLength.Statement (.sw rd rs) :=
  .inl ⟨_, rfl, by simp [isExtended]⟩
theorem EncodedLength.sb (rd rs : Reg) : EncodedLength.Statement (.sb rd rs) :=
  .inl ⟨_, rfl, by simp [isExtended]⟩
theorem EncodedLength.beq (off : BitVec 8) : EncodedLength.Statement (.beq off) :=
  .inl ⟨_, rfl, by simp [isExtended]⟩
theorem EncodedLength.bne (off : BitVec 8) : EncodedLength.Statement (.bne off) :=
  .inl ⟨_, rfl, by simp [isExtended]⟩
theorem EncodedLength.blt (off : BitVec 8) : EncodedLength.Statement (.blt off) :=
  .inl ⟨_, rfl, by simp [isExtended]⟩
theorem EncodedLength.bge (off : BitVec 8) : EncodedLength.Statement (.bge off) :=
  .inl ⟨_, rfl, by simp [isExtended]⟩
theorem EncodedLength.bltu (off : BitVec 8) : EncodedLength.Statement (.bltu off) :=
  .inl ⟨_, rfl, by simp [isExtended]⟩
theorem EncodedLength.bgeu (off : BitVec 8) : EncodedLength.Statement (.bgeu off) :=
  .inl ⟨_, rfl, by simp [isExtended]⟩
theorem EncodedLength.bmi (off : BitVec 8) : EncodedLength.Statement (.bmi off) :=
  .inl ⟨_, rfl, by simp [isExtended]⟩
theorem EncodedLength.bpl (off : BitVec 8) : EncodedLength.Statement (.bpl off) :=
  .inl ⟨_, rfl, by simp [isExtended]⟩
theorem EncodedLength.bvs (off : BitVec 8) : EncodedLength.Statement (.bvs off) :=
  .inl ⟨_, rfl, by simp [isExtended]⟩
theorem EncodedLength.bvc (off : BitVec 8) : EncodedLength.Statement (.bvc off) :=
  .inl ⟨_, rfl, by simp [isExtended]⟩
theorem EncodedLength.bcs (off : BitVec 8) : EncodedLength.Statement (.bcs off) :=
  .inl ⟨_, rfl, by simp [isExtended]⟩
theorem EncodedLength.bcc (off : BitVec 8) : EncodedLength.Statement (.bcc off) :=
  .inl ⟨_, rfl, by simp [isExtended]⟩
theorem EncodedLength.bgt (off : BitVec 8) : EncodedLength.Statement (.bgt off) :=
  .inl ⟨_, rfl, by simp [isExtended]⟩
theorem EncodedLength.ble (off : BitVec 8) : EncodedLength.Statement (.ble off) :=
  .inl ⟨_, rfl, by simp [isExtended]⟩
theorem EncodedLength.bhi (off : BitVec 8) : EncodedLength.Statement (.bhi off) :=
  .inl ⟨_, rfl, by simp [isExtended]⟩
theorem EncodedLength.bls (off : BitVec 8) : EncodedLength.Statement (.bls off) :=
  .inl ⟨_, rfl, by simp [isExtended]⟩
theorem EncodedLength.jr (rs : Reg) : EncodedLength.Statement (.jr rs) :=
  .inl ⟨_, rfl, by simp [isExtended]⟩
theorem EncodedLength.jalr (rs : Reg) : EncodedLength.Statement (.jalr rs) :=
  .inl ⟨_, rfl, by simp [isExtended]⟩
theorem EncodedLength.j (off : BitVec 12) : EncodedLength.Statement (.j off) :=
  .inl ⟨_, rfl, by simp [isExtended]⟩
theorem EncodedLength.sll (rd rs : Reg) : EncodedLength.Statement (.sll rd rs) :=
  .inl ⟨_, rfl, by simp [isExtended]⟩
theorem EncodedLength.srl (rd rs : Reg) : EncodedLength.Statement (.srl rd rs) :=
  .inl ⟨_, rfl, by simp [isExtended]⟩
theorem EncodedLength.sra (rd rs : Reg) : EncodedLength.Statement (.sra rd rs) :=
  .inl ⟨_, rfl, by simp [isExtended]⟩
theorem EncodedLength.rol (rd rs : Reg) : EncodedLength.Statement (.rol rd rs) :=
  .inl ⟨_, rfl, by simp [isExtended]⟩
theorem EncodedLength.ror (rd rs : Reg) : EncodedLength.Statement (.ror rd rs) :=
  .inl ⟨_, rfl, by simp [isExtended]⟩
theorem EncodedLength.rcl (rd rs : Reg) : EncodedLength.Statement (.rcl rd rs) :=
  .inl ⟨_, rfl, by simp [isExtended]⟩
theorem EncodedLength.rcr (rd rs : Reg) : EncodedLength.Statement (.rcr rd rs) :=
  .inl ⟨_, rfl, by simp [isExtended]⟩
theorem EncodedLength.swap (rd rs : Reg) : EncodedLength.Statement (.swap rd rs) :=
  .inl ⟨_, rfl, by simp [isExtended]⟩
theorem EncodedLength.sext (rd rs : Reg) : EncodedLength.Statement (.sext rd rs) :=
  .inl ⟨_, rfl, by simp [isExtended]⟩
theorem EncodedLength.mul (rd rs : Reg) : EncodedLength.Statement (.mul rd rs) :=
  .inl ⟨_, rfl, by simp [isExtended]⟩
theorem EncodedLength.mulh (rd rs : Reg) : EncodedLength.Statement (.mulh rd rs) :=
  .inl ⟨_, rfl, by simp [isExtended]⟩
theorem EncodedLength.mulhu (rd rs : Reg) : EncodedLength.Statement (.mulhu rd rs) :=
  .inl ⟨_, rfl, by simp [isExtended]⟩
theorem EncodedLength.div (rd rs : Reg) : EncodedLength.Statement (.div rd rs) :=
  .inl ⟨_, rfl, by simp [isExtended]⟩
theorem EncodedLength.divu (rd rs : Reg) : EncodedLength.Statement (.divu rd rs) :=
  .inl ⟨_, rfl, by simp [isExtended]⟩
theorem EncodedLength.rem (rd rs : Reg) : EncodedLength.Statement (.rem rd rs) :=
  .inl ⟨_, rfl, by simp [isExtended]⟩
theorem EncodedLength.remu (rd rs : Reg) : EncodedLength.Statement (.remu rd rs) :=
  .inl ⟨_, rfl, by simp [isExtended]⟩
theorem EncodedLength.mov (rd rs : Reg) : EncodedLength.Statement (.mov rd rs) :=
  .inl ⟨_, rfl, by simp [isExtended]⟩
theorem EncodedLength.not (rd rs : Reg) : EncodedLength.Statement (.not rd rs) :=
  .inl ⟨_, rfl, by simp [isExtended]⟩
theorem EncodedLength.neg (rd rs : Reg) : EncodedLength.Statement (.neg rd rs) :=
  .inl ⟨_, rfl, by simp [isExtended]⟩
theorem EncodedLength.adc (rd rs : Reg) : EncodedLength.Statement (.adc rd rs) :=
  .inl ⟨_, rfl, by simp [isExtended]⟩
theorem EncodedLength.sbc (rd rs : Reg) : EncodedLength.Statement (.sbc rd rs) :=
  .inl ⟨_, rfl, by simp [isExtended]⟩
theorem EncodedLength.cmp (rd rs : Reg) : EncodedLength.Statement (.cmp rd rs) :=
  .inl ⟨_, rfl, by simp [isExtended]⟩
theorem EncodedLength.tst (rd rs : Reg) : EncodedLength.Statement (.tst rd rs) :=
  .inl ⟨_, rfl, by simp [isExtended]⟩
theorem EncodedLength.push (rs : Reg) : EncodedLength.Statement (.push rs) :=
  .inl ⟨_, rfl, by simp [isExtended]⟩
theorem EncodedLength.pop (rd : Reg) : EncodedLength.Statement (.pop rd) :=
  .inl ⟨_, rfl, by simp [isExtended]⟩
theorem EncodedLength.exx : EncodedLength.Statement (.exx) :=
  .inl ⟨_, rfl, by simp [isExtended]⟩
theorem EncodedLength.ldi : EncodedLength.Statement (.ldi) :=
  .inl ⟨_, rfl, by simp [isExtended]⟩
theorem EncodedLength.ldd : EncodedLength.Statement (.ldd) :=
  .inl ⟨_, rfl, by simp [isExtended]⟩
theorem EncodedLength.ldir : EncodedLength.Statement (.ldir) :=
  .inl ⟨_, rfl, by simp [isExtended]⟩
theorem EncodedLength.lddr : EncodedLength.Statement (.lddr) :=
  .inl ⟨_, rfl, by simp [isExtended]⟩
theorem EncodedLength.fill : EncodedLength.Statement (.fill) :=
  .inl ⟨_, rfl, by simp [isExtended]⟩
theorem EncodedLength.cpir : EncodedLength.Statement (.cpir) :=
  .inl ⟨_, rfl, by simp [isExtended]⟩
theorem EncodedLength.inPort (rd rs : Reg) : EncodedLength.Statement (.inPort rd rs) :=
  .inl ⟨_, rfl, by simp [isExtended]⟩
theorem EncodedLength.outPort (rd rs : Reg) : EncodedLength.Statement (.outPort rd rs) :=
  .inl ⟨_, rfl, by simp [isExtended]⟩
theorem EncodedLength.nop : EncodedLength.Statement (.nop) :=
  .inl ⟨_, rfl, by simp [isExtended]⟩
theorem EncodedLength.halt : EncodedLength.Statement (.halt) :=
  .inl ⟨_, rfl, by simp [isExtended]⟩
theorem EncodedLength.ei : EncodedLength.Statement (.ei) :=
  .inl ⟨_, rfl, by simp [isExtended]⟩
theorem EncodedLength.di : EncodedLength.Statement (.di) :=
  .inl ⟨_, rfl, by simp [isExtended]⟩
theorem EncodedLength.swi : EncodedLength.Statement (.swi) :=
  .inl ⟨_, rfl, by simp [isExtended]⟩
theorem EncodedLength.reti : EncodedLength.Statement (.reti) :=
  .inl ⟨_, rfl, by simp [isExtended]⟩
theorem EncodedLength.getf (rd : Reg) : EncodedLength.Statement (.getf rd) :=
  .inl ⟨_, rfl, by simp [isExtended]⟩
theorem EncodedLength.setf (rs : Reg) : EncodedLength.Statement (.setf rs) :=
  .inl ⟨_, rfl, by simp [isExtended]⟩
theorem EncodedLength.getiv (rd : Reg) : EncodedLength.Statement (.getiv rd) :=
  .inl ⟨_, rfl, by simp [isExtended]⟩
theorem EncodedLength.setiv (rs : Reg) : EncodedLength.Statement (.setiv rs) :=
  .inl ⟨_, rfl, by simp [isExtended]⟩
theorem EncodedLength.addiExt (rd rs : Reg) (imm : Word) : EncodedLength.Statement (.addiExt rd rs imm) :=
  .inr ⟨_, _, rfl, by simp [isExtended]⟩
theorem EncodedLength.andi (rd rs : Reg) (imm : Word) : EncodedLength.Statement (.andi rd rs imm) :=
  .inr ⟨_, _, rfl, by simp [isExtended]⟩
theorem EncodedLength.ori (rd rs : Reg) (imm : Word) : EncodedLength.Statement (.ori rd rs imm) :=
  .inr ⟨_, _, rfl, by simp [isExtended]⟩
theorem EncodedLength.xori (rd rs : Reg) (imm : Word) : EncodedLength.Statement (.xori rd rs imm) :=
  .inr ⟨_, _, rfl, by simp [isExtended]⟩
theorem EncodedLength.cmpi (rd : Reg) (imm : Word) : EncodedLength.Statement (.cmpi rd imm) :=
  .inr ⟨_, _, rfl, by simp [isExtended]⟩
theorem EncodedLength.li (rd : Reg) (imm : Word) : EncodedLength.Statement (.li rd imm) :=
  .inr ⟨_, _, rfl, by simp [isExtended]⟩
theorem EncodedLength.lwExt (rd rs : Reg) (imm : Word) : EncodedLength.Statement (.lwExt rd rs imm) :=
  .inr ⟨_, _, rfl, by simp [isExtended]⟩
theorem EncodedLength.lbExt (rd rs : Reg) (imm : Word) : EncodedLength.Statement (.lbExt rd rs imm) :=
  .inr ⟨_, _, rfl, by simp [isExtended]⟩
theorem EncodedLength.lbuExt (rd rs : Reg) (imm : Word) : EncodedLength.Statement (.lbuExt rd rs imm) :=
  .inr ⟨_, _, rfl, by simp [isExtended]⟩
theorem EncodedLength.swExt (rd rs : Reg) (imm : Word) : EncodedLength.Statement (.swExt rd rs imm) :=
  .inr ⟨_, _, rfl, by simp [isExtended]⟩
theorem EncodedLength.sbExt (rd rs : Reg) (imm : Word) : EncodedLength.Statement (.sbExt rd rs imm) :=
  .inr ⟨_, _, rfl, by simp [isExtended]⟩
theorem EncodedLength.beqFar (off : Word) : EncodedLength.Statement (.beqFar off) :=
  .inr ⟨_, _, rfl, by simp [isExtended]⟩
theorem EncodedLength.bneFar (off : Word) : EncodedLength.Statement (.bneFar off) :=
  .inr ⟨_, _, rfl, by simp [isExtended]⟩
theorem EncodedLength.bltFar (off : Word) : EncodedLength.Statement (.bltFar off) :=
  .inr ⟨_, _, rfl, by simp [isExtended]⟩
theorem EncodedLength.bgeFar (off : Word) : EncodedLength.Statement (.bgeFar off) :=
  .inr ⟨_, _, rfl, by simp [isExtended]⟩
theorem EncodedLength.bltuFar (off : Word) : EncodedLength.Statement (.bltuFar off) :=
  .inr ⟨_, _, rfl, by simp [isExtended]⟩
theorem EncodedLength.bgeuFar (off : Word) : EncodedLength.Statement (.bgeuFar off) :=
  .inr ⟨_, _, rfl, by simp [isExtended]⟩
theorem EncodedLength.bmiFar (off : Word) : EncodedLength.Statement (.bmiFar off) :=
  .inr ⟨_, _, rfl, by simp [isExtended]⟩
theorem EncodedLength.bplFar (off : Word) : EncodedLength.Statement (.bplFar off) :=
  .inr ⟨_, _, rfl, by simp [isExtended]⟩
theorem EncodedLength.bvsFar (off : Word) : EncodedLength.Statement (.bvsFar off) :=
  .inr ⟨_, _, rfl, by simp [isExtended]⟩
theorem EncodedLength.bvcFar (off : Word) : EncodedLength.Statement (.bvcFar off) :=
  .inr ⟨_, _, rfl, by simp [isExtended]⟩
theorem EncodedLength.bcsFar (off : Word) : EncodedLength.Statement (.bcsFar off) :=
  .inr ⟨_, _, rfl, by simp [isExtended]⟩
theorem EncodedLength.bccFar (off : Word) : EncodedLength.Statement (.bccFar off) :=
  .inr ⟨_, _, rfl, by simp [isExtended]⟩
theorem EncodedLength.bgtFar (off : Word) : EncodedLength.Statement (.bgtFar off) :=
  .inr ⟨_, _, rfl, by simp [isExtended]⟩
theorem EncodedLength.bleFar (off : Word) : EncodedLength.Statement (.bleFar off) :=
  .inr ⟨_, _, rfl, by simp [isExtended]⟩
theorem EncodedLength.bhiFar (off : Word) : EncodedLength.Statement (.bhiFar off) :=
  .inr ⟨_, _, rfl, by simp [isExtended]⟩
theorem EncodedLength.blsFar (off : Word) : EncodedLength.Statement (.blsFar off) :=
  .inr ⟨_, _, rfl, by simp [isExtended]⟩
theorem EncodedLength.jFar (off : Word) : EncodedLength.Statement (.jFar off) :=
  .inr ⟨_, _, rfl, by simp [isExtended]⟩
theorem EncodedLength.jmp (addr : Word) : EncodedLength.Statement (.jmp addr) :=
  .inr ⟨_, _, rfl, by simp [isExtended]⟩
theorem EncodedLength.call (addr : Word) : EncodedLength.Statement (.call addr) :=
  .inr ⟨_, _, rfl, by simp [isExtended]⟩

end Sys2Proof.Laws
end

