-- ==== Sys2Proof/Machine/Run.lean ====
section
/-! DEFINITION. The run loop of spec/70_reset_and_hazards.md R354: rounds of events, test of RUN and step, up to a bound
on the number of steps. -/

namespace Sys2Proof.Machine

/-- What a run reports when it stops (R354): the terminal state reached, or that the loop was stopped while Running. -/
inductive RunReport where
  /-- `RUN` is Halted. -/
  | success
  /-- `RUN` is Faulted, with the kind and the address. -/
  | failure (kind : FaultKind) (addr : Word)
  /-- The environment chose to stop between steps, or the bound on steps is used up (log 15). -/
  | stopped
  deriving DecidableEq, Repr

/-- The report of a final state, read from its `RUN` (R354). -/
def State.report (s : State) : RunReport :=
  match s.run with
  | .halted => .success
  | .faulted kind addr => .failure kind addr
  | .running => .stopped

/-- The loop of R354 entered at its test of `RUN`, on a state whose boundary events have been delivered: it stops where
no step exists or after `fuel` steps, and otherwise steps and delivers the events of the next boundary. -/
def loopFrom : Nat → State → State
  | 0, s => s
  | fuel + 1, s =>
    match stepAtBoundary s with
    | .next t => loopFrom fuel t.deliver
    | .fault _ => s
    | .refused _ => s

/-- `Run` (R354) with a bound of `fuel` steps, which also stands for the environment's choice to stop (log 15). Its
result is the final state; the events of the boundary at which it stops have been delivered, so that an `irq` there sets
`IP` in a terminal state too (10_state.md R39). -/
def runLoop (fuel : Nat) (s : State) : State := loopFrom fuel s.deliver

/-- A whole run (R351, R354, R355): the image loaded at `base` over `mem`, the environment's parameters and inputs given,
then the loop; `none` where the image does not fit. -/
def runImage (fuel : Nat) (base : Word) (mem : Memory) (env : Env) (image : List Byte) : Option State :=
  (bootImage base mem image).map fun s => runLoop fuel { s with env := env }

end Sys2Proof.Machine
end

