-- ==== Sys2Proof/Laws/Run.lean ====
section
/-! SUPPORT. What the run loop of spec/70_reset_and_hazards.md R354 can do: it is the step repeated, it stops in a
terminal state with the last boundary's events delivered, and a larger bound does not change a run that has ended. -/

namespace Sys2Proof.Machine

variable {s t : State}

@[simp] theorem State.deliver_run (s : State) : s.deliver.run = s.run := by rw [State.deliver_eq]

/-- In a terminal state there is no step (10_state.md R39). -/
theorem stepAtBoundary_of_terminal (h : s.terminal) : ∃ f, stepAtBoundary s = .fault f := by
  unfold stepAtBoundary
  split
  · exact ⟨_, rfl⟩
  · exact ⟨_, rfl⟩
  · next hr => exact absurd hr h

@[simp] theorem loopFrom_zero (s : State) : loopFrom 0 s = s := rfl

theorem loopFrom_of_step (h : stepAtBoundary s = .next t) (n : Nat) : loopFrom (n + 1) s = loopFrom n t.deliver := by
  simp [loopFrom, h]

theorem loopFrom_of_terminal (h : s.terminal) (n : Nat) : loopFrom n s = s := by
  obtain ⟨f, hf⟩ := stepAtBoundary_of_terminal h
  cases n <;> simp [loopFrom, hf]

/-- A loop stopped after `m` steps and taken up again at the same boundary for `n` more is the loop of `m + n` steps. -/
theorem loopFrom_add (m n : Nat) (s : State) : loopFrom (m + n) s = loopFrom n (loopFrom m s) := by
  induction m generalizing s with
  | zero => simp
  | succ m ih =>
    rw [Nat.add_right_comm]
    cases h : stepAtBoundary s with
    | next t => rw [loopFrom_of_step h, loopFrom_of_step h, ih]
    | fault f => cases n <;> simp [loopFrom, h]
    | refused r => cases n <;> simp [loopFrom, h]

/-- A run in a terminal state takes no step; the boundary's `irq` still sets `IP` (10_state.md R39). -/
theorem runLoop_of_terminal (h : s.terminal) (n : Nat) : runLoop n s = s.deliver :=
  loopFrom_of_terminal (by simpa [State.terminal] using h) n

/-- The loop is the step repeated. -/
theorem runLoop_of_step (h : step s = .next t) (n : Nat) : runLoop (n + 1) s = runLoop n t :=
  loopFrom_of_step h n

/-- A run that has ended keeps its final state under any larger bound. -/
theorem runLoop_add_of_terminal {m : Nat} (h : (runLoop m s).terminal) (n : Nat) :
    runLoop (m + n) s = runLoop m s :=
  (loopFrom_add m n s.deliver).trans (loopFrom_of_terminal h n)

/-- The report is `stopped` exactly when the final state is not terminal. -/
theorem report_eq_stopped : s.report = .stopped ↔ ¬ s.terminal := by
  unfold State.report State.terminal
  split <;> simp_all

theorem report_eq_success : s.report = .success ↔ s.run = .halted := by
  unfold State.report
  split <;> simp_all

theorem report_eq_failure (kind : FaultKind) (addr : Word) :
    s.report = .failure kind addr ↔ s.run = .faulted kind addr := by
  unfold State.report
  split <;> simp_all

theorem reachable_of_step (h : step s = .next t) {u : State} (hu : Reachable t u) : Reachable s u := by
  induction hu with
  | here => exact .step .here h
  | step _ hs ih => exact .step ih hs

/-- The final state of a run is a reachable state at its boundary, events delivered. -/
theorem runLoop_reachable (n : Nat) (s : State) : ∃ t, Reachable s t ∧ runLoop n s = t.deliver := by
  induction n generalizing s with
  | zero => exact ⟨s, .here, rfl⟩
  | succ n ih =>
    cases h : step s with
    | next t =>
      obtain ⟨u, hu, he⟩ := ih t
      exact ⟨u, reachable_of_step h hu, (runLoop_of_step h n).trans he⟩
    | fault f => exact ⟨s, .here, by simp [runLoop, loopFrom, show stepAtBoundary s.deliver = .fault f from h]⟩
    | refused r => exact ⟨s, .here, by simp [runLoop, loopFrom, show stepAtBoundary s.deliver = .refused r from h]⟩

/-- What events and steps keep, a run keeps. -/
theorem runLoop_keeps {P : State → Prop} (hd : ∀ u, P u → P u.deliver) (hs : ∀ u v, P u → step u = .next v → P v)
    (h : P s) (n : Nat) : P (runLoop n s) := by
  obtain ⟨t, hr, he⟩ := runLoop_reachable n s
  rw [he]
  refine hd t ?_
  clear he
  induction hr with
  | here => exact h
  | step _ hstep ih => exact hs _ _ ih hstep

end Sys2Proof.Machine
end

