-- ==== Sys2Proof/Tests/Slice0.lean ====
section
/-! SUPPORT. The model's own tests: one step on a small state, expected results from spec/95_test_vectors.md; the words of
the encodings, written out from spec/30_encoding.md; and, for every statement with hypotheses, states and operands that
meet them. -/

namespace Sys2Proof.Tests

open Sys2Proof.Machine Sys2Proof.Spec

/-! ## Small states -/

/-- The flags from `N Z C V H` written as five bits. -/
def flags (b : BitVec 5) : Flags :=
  { n := b.getLsbD 4, z := b.getLsbD 3, c := b.getLsbD 2, v := b.getLsbD 1, h := b.getLsbD 0 }

/-- The reset state at `pc` with words there, some registers set and some bytes of memory set. -/
def start (pc : Word) (words : List Word) (regs : List (PhysReg × Word)) (bytes : List (Word × Byte)) : State :=
  let code := words.flatMap fun w => [w.extractLsb' 0 8, w.extractLsb' 8 8]
  let room := code.take (0x10000 - pc.toNat)
  let loaded := bytes.foldl (fun m p => m.write p.1 p.2) (Memory.writeBytes [] pc room)
  regs.foldl (fun s p => s.setPhys p.1 p.2) { State.reset with pc := pc, mem := loaded }

/-- The device map of spec/95_test_vectors.md 2.9: a read handler at 0x10, a write handler at 0x11. -/
def portMap : Env := { Env.initial with readPorts := [0x10#8], writePorts := [0x11#8], answers := [0x81#8] }

/-- The step has a next state and it passes the check. -/
def after (s : State) (check : State → Bool) : Bool :=
  match step s with
  | .next t => check t
  | .fault _ => false
  | .refused _ => false

/-! ## Encodings, bit by bit -/

/-- 30_encoding.md R98: opcode, rd = 4, rs1 = 5, rs2 = 6; ADDI rd = 4, imm8 = −128. -/
theorem test_decode_three_register :
    [0b0000_0100_0101_0110#16, 0b0001_0100_0101_0110#16, 0b0010_0100_0101_0110#16, 0b0011_0100_0101_0110#16,
       0b0100_0100_0101_0110#16, 0b0101_0100_1000_0000#16].map
        (fun w => decode (.compact w)) =
      [.ok (.add 4#4 5#4 6#4), .ok (.sub 4#4 5#4 6#4), .ok (.and 4#4 5#4 6#4), .ok (.or 4#4 5#4 6#4),
       .ok (.xor 4#4 5#4 6#4), .ok (.addi 4#4 0x80#8)] := by decide

/-- 30_encoding.md R99, R100: rd = 4, rs = 5, func. -/
theorem test_decode_load_store :
    [0b0110_0100_0101_0000#16, 0b0110_0100_0101_0001#16, 0b0110_0100_0101_0010#16, 0b0111_0100_0101_0000#16,
       0b0111_0100_0101_0001#16].map
        (fun w => decode (.compact w)) =
      [.ok (.lw 4#4 5#4), .ok (.lb 4#4 5#4), .ok (.lbu 4#4 5#4), .ok (.sw 4#4 5#4),
       .ok (.sb 4#4 5#4)] := by decide

/-- 30_encoding.md R101: cond 0 to 15, off8 = −2. -/
theorem test_decode_branches :
    [0b1000_0000_1111_1110#16, 0b1000_0001_1111_1110#16, 0b1000_0010_1111_1110#16, 0b1000_0011_1111_1110#16,
       0b1000_0100_1111_1110#16, 0b1000_0101_1111_1110#16, 0b1000_0110_1111_1110#16, 0b1000_0111_1111_1110#16,
       0b1000_1000_1111_1110#16, 0b1000_1001_1111_1110#16, 0b1000_1010_1111_1110#16, 0b1000_1011_1111_1110#16,
       0b1000_1100_1111_1110#16, 0b1000_1101_1111_1110#16, 0b1000_1110_1111_1110#16, 0b1000_1111_1111_1110#16].map
        (fun w => decode (.compact w)) =
      [.ok (.beq 0xFE#8), .ok (.bne 0xFE#8), .ok (.blt 0xFE#8), .ok (.bge 0xFE#8),
       .ok (.bltu 0xFE#8), .ok (.bgeu 0xFE#8), .ok (.bmi 0xFE#8), .ok (.bpl 0xFE#8),
       .ok (.bvs 0xFE#8), .ok (.bvc 0xFE#8), .ok (.bcs 0xFE#8), .ok (.bcc 0xFE#8),
       .ok (.bgt 0xFE#8), .ok (.ble 0xFE#8), .ok (.bhi 0xFE#8), .ok (.bls 0xFE#8)] := by decide

/-- 30_encoding.md R102: off12 = −50, −2016 and 2047, then the two register forms with rs = 5. -/
theorem test_decode_jumps :
    [0b1001_1111_1100_1110#16, 0b1001_1000_0010_0000#16, 0b1001_0111_1111_1111#16, 0b1001_1000_0000_0101#16,
       0b1001_1000_0001_0101#16].map
        (fun w => decode (.compact w)) =
      [.ok (.j 0xFCE#12), .ok (.j 0x820#12), .ok (.j 0x7FF#12), .ok (.jr 5#4),
       .ok (.jalr 5#4)] := by decide

/-- 30_encoding.md R103: rd = 4, rs = 5, func 0 to 8. -/
theorem test_decode_shifts :
    [0b1010_0100_0101_0000#16, 0b1010_0100_0101_0001#16, 0b1010_0100_0101_0010#16, 0b1010_0100_0101_0011#16,
       0b1010_0100_0101_0100#16, 0b1010_0100_0101_0101#16, 0b1010_0100_0101_0110#16, 0b1010_0100_0101_0111#16,
       0b1010_0100_0101_1000#16].map
        (fun w => decode (.compact w)) =
      [.ok (.sll 4#4 5#4), .ok (.srl 4#4 5#4), .ok (.sra 4#4 5#4), .ok (.rol 4#4 5#4),
       .ok (.ror 4#4 5#4), .ok (.rcl 4#4 5#4), .ok (.rcr 4#4 5#4), .ok (.swap 4#4 5#4),
       .ok (.sext 4#4 5#4)] := by decide

/-- 30_encoding.md R104: rd = 4, rs = 5, func 0 to 6. -/
theorem test_decode_multiply_divide :
    [0b1011_0100_0101_0000#16, 0b1011_0100_0101_0001#16, 0b1011_0100_0101_0010#16, 0b1011_0100_0101_0011#16,
       0b1011_0100_0101_0100#16, 0b1011_0100_0101_0101#16, 0b1011_0100_0101_0110#16].map
        (fun w => decode (.compact w)) =
      [.ok (.mul 4#4 5#4), .ok (.mulh 4#4 5#4), .ok (.mulhu 4#4 5#4), .ok (.div 4#4 5#4),
       .ok (.divu 4#4 5#4), .ok (.rem 4#4 5#4), .ok (.remu 4#4 5#4)] := by decide

/-- 30_encoding.md R105: func 0 to 15; PUSH with rs = 5, POP with rd = 4. -/
theorem test_decode_miscellaneous :
    [0b1100_0100_0101_0000#16, 0b1100_0100_0101_0001#16, 0b1100_0100_0101_0010#16, 0b1100_0100_0101_0011#16,
       0b1100_0100_0101_0100#16, 0b1100_0100_0101_0101#16, 0b1100_0100_0101_0110#16, 0b1100_0000_0101_0111#16,
       0b1100_0100_0000_1000#16, 0b1100_0000_0000_1001#16, 0b1100_0000_0000_1010#16, 0b1100_0000_0000_1011#16,
       0b1100_0000_0000_1100#16, 0b1100_0000_0000_1101#16, 0b1100_0000_0000_1110#16, 0b1100_0000_0000_1111#16].map
        (fun w => decode (.compact w)) =
      [.ok (.mov 4#4 5#4), .ok (.not 4#4 5#4), .ok (.neg 4#4 5#4), .ok (.adc 4#4 5#4),
       .ok (.sbc 4#4 5#4), .ok (.cmp 4#4 5#4), .ok (.tst 4#4 5#4), .ok (.push 5#4),
       .ok (.pop 4#4), .ok (.exx), .ok (.ldi), .ok (.ldd),
       .ok (.ldir), .ok (.lddr), .ok (.fill), .ok (.cpir)] := by decide

/-- 30_encoding.md R106: IN rd = 4, rs = 5; OUT port register 6, data register 8. -/
theorem test_decode_ports :
    [0b1101_0100_0101_0000#16, 0b1101_0110_1000_0001#16].map
        (fun w => decode (.compact w)) =
      [.ok (.inPort 4#4 5#4), .ok (.outPort 6#4 8#4)] := by decide

/-- 30_encoding.md R107: func 0 to 9; rd = 4, rs = 5. -/
theorem test_decode_system :
    [0b1110_0000_0000_0000#16, 0b1110_0000_0000_0001#16, 0b1110_0000_0000_0010#16, 0b1110_0000_0000_0011#16,
       0b1110_0000_0000_0100#16, 0b1110_0000_0000_0101#16, 0b1110_0100_0000_0110#16, 0b1110_0000_0101_0111#16,
       0b1110_0100_0000_1000#16, 0b1110_0000_0101_1001#16].map
        (fun w => decode (.compact w)) =
      [.ok (.nop), .ok (.halt), .ok (.ei), .ok (.di),
       .ok (.swi), .ok (.reti), .ok (.getf 4#4), .ok (.setf 5#4),
       .ok (.getiv 4#4), .ok (.setiv 5#4)] := by decide

/-- 30_encoding.md R108: sub 0 to 10 and 12 to 14, rd = 4, rs = 5, second word 0xBEEF. -/
theorem test_decode_extended :
    [0b1111_0100_0101_0000#16, 0b1111_0100_0101_0001#16, 0b1111_0100_0101_0010#16, 0b1111_0100_0101_0011#16,
       0b1111_0100_0101_0110#16, 0b1111_0100_0101_0111#16, 0b1111_0100_0101_1000#16, 0b1111_0100_0101_1001#16,
       0b1111_0100_0101_1010#16, 0b1111_0100_0000_0100#16, 0b1111_0100_0000_0101#16, 0b1111_0000_0000_1100#16,
       0b1111_0000_0000_1101#16, 0b1111_0000_0000_1110#16].map
        (fun w => decode (.extended w 0xBEEF#16)) =
      [.ok (.addiExt 4#4 5#4 0xBEEF#16), .ok (.andi 4#4 5#4 0xBEEF#16), .ok (.ori 4#4 5#4 0xBEEF#16), .ok (.xori 4#4 5#4 0xBEEF#16),
       .ok (.lwExt 4#4 5#4 0xBEEF#16), .ok (.lbExt 4#4 5#4 0xBEEF#16), .ok (.lbuExt 4#4 5#4 0xBEEF#16), .ok (.swExt 4#4 5#4 0xBEEF#16),
       .ok (.sbExt 4#4 5#4 0xBEEF#16), .ok (.cmpi 4#4 0xBEEF#16), .ok (.li 4#4 0xBEEF#16), .ok (.jFar 0xBEEF#16),
       .ok (.jmp 0xBEEF#16), .ok (.call 0xBEEF#16)] := by decide

/-- 30_encoding.md R108: sub 11, cond 0 to 15 in the rd field, second word 0xBEEF. -/
theorem test_decode_far_branches :
    [0b1111_0000_0000_1011#16, 0b1111_0001_0000_1011#16, 0b1111_0010_0000_1011#16, 0b1111_0011_0000_1011#16,
       0b1111_0100_0000_1011#16, 0b1111_0101_0000_1011#16, 0b1111_0110_0000_1011#16, 0b1111_0111_0000_1011#16,
       0b1111_1000_0000_1011#16, 0b1111_1001_0000_1011#16, 0b1111_1010_0000_1011#16, 0b1111_1011_0000_1011#16,
       0b1111_1100_0000_1011#16, 0b1111_1101_0000_1011#16, 0b1111_1110_0000_1011#16, 0b1111_1111_0000_1011#16].map
        (fun w => decode (.extended w 0xBEEF#16)) =
      [.ok (.beqFar 0xBEEF#16), .ok (.bneFar 0xBEEF#16), .ok (.bltFar 0xBEEF#16), .ok (.bgeFar 0xBEEF#16),
       .ok (.bltuFar 0xBEEF#16), .ok (.bgeuFar 0xBEEF#16), .ok (.bmiFar 0xBEEF#16), .ok (.bplFar 0xBEEF#16),
       .ok (.bvsFar 0xBEEF#16), .ok (.bvcFar 0xBEEF#16), .ok (.bcsFar 0xBEEF#16), .ok (.bccFar 0xBEEF#16),
       .ok (.bgtFar 0xBEEF#16), .ok (.bleFar 0xBEEF#16), .ok (.bhiFar 0xBEEF#16), .ok (.blsFar 0xBEEF#16)] := by decide

/-- 30_encoding.md R109, R112: one unassigned or non-zero field of each opcode that has one. -/
theorem test_decode_undefined :
    ([0x6003#16, 0x7002#16, 0xA009#16, 0xB007#16, 0xC107#16, 0xC018#16, 0xC109#16, 0xC01F#16, 0xD002#16, 0xE010#16,
      0xE016#16, 0xE107#16, 0xE00A#16].all fun w => decide (decode (.compact w) = .undefinedOpcode)) = true ∧
    ([0xF414#16, 0xF415#16, 0xF41B#16, 0xF10C#16, 0xF01D#16, 0xF10E#16, 0xF00F#16].all fun w =>
      decide (decode (.extended w 0x0000#16) = .undefinedOpcode)) = true := by decide

/-- 30_encoding.md R96, R102: the offsets −2048 to −2017 have no compact `J`; −2016 and the others have. -/
theorem test_wellFormed :
    (Instr.j (BitVec.ofInt 12 (-2048))).wellFormed = false ∧ (Instr.j (BitVec.ofInt 12 (-2017))).wellFormed = false ∧
    (Instr.j (BitVec.ofInt 12 (-2016))).wellFormed = true ∧ (Instr.j 0x7FF#12).wellFormed = true := by decide

/-- The table's bit numbering: the second word stands in bits 31 to 16; the step runs what was stored (log 20). -/
theorem test_withFetchWord :
    decodeTableWord 16 0x0456 = some (.add 4#4 5#4 6#4) ∧ decodeTableWord 32 0xBEEFF405 = some (.li 4#4 0xBEEF#16) ∧
    decodeTableWord 16 0xE00A = none ∧
    after (State.reset.withFetchWord 32 0xBEEFF405) (fun t => decide (t.x 4#4 = 0xBEEF#16)) = true := by decide

/-- spec/95_test_vectors.md 2.6: the conditions that hold after `CMP`, for the flags of five of its rows. -/
theorem test_conditions :
    ([(0b10000#5, [.ne, .lt, .ltu, .mi, .vc, .cc, .le, .ls]), (0b01101#5, [.eq, .ge, .geu, .pl, .vc, .cs, .le, .ls]),
      (0b00110#5, [.ne, .lt, .geu, .pl, .vs, .cs, .le, .hi]), (0b10011#5, [.ne, .ge, .ltu, .mi, .vs, .cc, .gt, .ls]),
      (0b10101#5, [.ne, .lt, .geu, .mi, .vc, .cs, .le, .hi])].all fun (p : BitVec 5 × List Cond) =>
      [Cond.eq, .ne, .lt, .ge, .ltu, .geu, .mi, .pl, .vs, .vc, .cs, .cc, .gt, .le, .hi, .ls].all fun c =>
        condHolds c (flags p.1) == decide (c ∈ p.2)) = true := by decide

/-! ## Witnesses: states and operands that meet the hypotheses of the statements

Each is named after its statement; a statement without hypotheses has none. -/

/-- `ADD R4,R5,R6` at `pc`. -/
def adds : State := start 0x0100#16 [0x0456#16] [(.primary 5#4, 0x1234#16), (.primary 6#4, 0x1111#16)] []

/-- A pending request with interrupts enabled. -/
def asked (sp : Word) : State :=
  { start 0x0100#16 [0xE000#16] [(.primary 2#4, sp)] [] with ie := true, ip := true, iv := 0x0200#16 }

/-- A state at `pc` with words there. -/
def at' (pc : Word) (words : List Word) : State := start pc words [] []

/-- The reset state with two registers set. -/
def with2 (i : Reg) (a : Word) (j : Reg) (b : Word) : State := (State.reset.setX i a).setX j b

theorem witness_StepRunsDecodedInstruction : ReadyToFetch adds ∧ adds.fetchDecode = .ok (.add 4#4 5#4 6#4) := by
  unfold ReadyToFetch; decide

theorem witness_StepOrderOfEvents_terminal : ({ adds with run := .halted } : State).run ≠ .running := by decide
theorem witness_StepOrderOfEvents_accept : ReadyToAccept (asked 0x8000#16) := by unfold ReadyToAccept; decide
theorem witness_StepOrderOfEvents_irq :
    ReadyToAccept { adds with ie := true, env := { adds.env with irqs := [true] } } := by unfold ReadyToAccept; decide
theorem witness_StepOrderOfEvents_truncated :
    ReadyToFetch (at' 0xFFFF#16 [0xE000#16]) ∧ fetch (at' 0xFFFF#16 [0xE000#16]).mem 0xFFFF#16 = .truncated := by
  unfold ReadyToFetch; decide
theorem witness_StepOrderOfEvents_undefined :
    ReadyToFetch (at' 0x0100#16 [0x6453#16]) ∧
    fetch (at' 0x0100#16 [0x6453#16]).mem 0x0100#16 = .compact 0x6453#16 ∧
    decode (.compact 0x6453#16) = .undefinedOpcode := by unfold ReadyToFetch; decide
theorem witness_StepOrderOfEvents_undefinedExtended :
    ReadyToFetch (at' 0x0100#16 [0xFFFF#16, 0x0000#16]) ∧
    fetch (at' 0x0100#16 [0xFFFF#16, 0x0000#16]).mem 0x0100#16 = .extended 0xFFFF#16 0x0000#16 ∧
    decode (.extended 0xFFFF#16 0x0000#16) = .undefinedOpcode := by unfold ReadyToFetch; decide
theorem witness_StepOrderOfEvents_instruction :
    ReadyToFetch adds ∧ decode (fetch adds.mem adds.pc) = .ok (.add 4#4 5#4 6#4) := by unfold ReadyToFetch; decide

/-- What `HoldsAtPc` asks of a compact instruction at `pc`, byte by byte. -/
theorem holdsAtPc_of_two {s : State} {i : Instr} {b0 b1 : Byte} (h : encodeBytes i = [b0, b1])
    (hp : s.pc.toNat + 2 ≤ 0x10000) (h0 : s.mem.read s.pc = b0) (h1 : s.mem.read (s.pc + 1#16) = b1) : HoldsAtPc s i := by
  refine ⟨by rw [h]; exact hp, fun k b hk => ?_⟩
  rw [h] at hk
  match k with
  | 0 => simp at hk; simpa [hk] using h0
  | 1 => simp at hk; simpa [hk] using h1
  | k + 2 => simp at hk

/-- The same for an extended instruction. -/
theorem holdsAtPc_of_four {s : State} {i : Instr} {b0 b1 b2 b3 : Byte} (h : encodeBytes i = [b0, b1, b2, b3])
    (hp : s.pc.toNat + 4 ≤ 0x10000) (h0 : s.mem.read s.pc = b0) (h1 : s.mem.read (s.pc + 1#16) = b1)
    (h2 : s.mem.read (s.pc + 2#16) = b2) (h3 : s.mem.read (s.pc + 3#16) = b3) : HoldsAtPc s i := by
  refine ⟨by rw [h]; exact hp, fun k b hk => ?_⟩
  rw [h] at hk
  match k with
  | 0 => simp at hk; simpa [hk] using h0
  | 1 => simp at hk; simpa [hk] using h1
  | 2 => simp at hk; simpa [hk] using h2
  | 3 => simp at hk; simpa [hk] using h3
  | k + 4 => simp at hk

theorem witness_EncodedInstructionRuns_compact :
    (Instr.add 4#4 5#4 6#4).wellFormed = true ∧ HoldsAtPc adds (.add 4#4 5#4 6#4) ∧ ReadyToFetch adds :=
  ⟨rfl, holdsAtPc_of_two (b0 := 0x56#8) (b1 := 0x04#8) (by decide) (by decide) (by decide) (by decide),
    by unfold ReadyToFetch; decide⟩
theorem witness_EncodedInstructionRuns_extended :
    (Instr.li 4#4 0xBEEF#16).wellFormed = true ∧
    HoldsAtPc (at' 0xFFFC#16 [0xF405#16, 0xBEEF#16]) (.li 4#4 0xBEEF#16) ∧
    ReadyToFetch (at' 0xFFFC#16 [0xF405#16, 0xBEEF#16]) :=
  ⟨rfl, holdsAtPc_of_four (b0 := 0x05#8) (b1 := 0xF4#8) (b2 := 0xEF#8) (b3 := 0xBE#8) (by decide) (by decide) (by decide)
    (by decide) (by decide) (by decide), by unfold ReadyToFetch; decide⟩

theorem witness_FetchBeyondMemoryFaults_top : ReadyToFetch (at' 0xFFFF#16 [0xE000#16]) := by unfold ReadyToFetch; decide
theorem witness_FetchBeyondMemoryFaults_extended :
    ReadyToFetch (at' 0xFFFD#16 [0xF405#16]) ∧ (wordIn (at' 0xFFFD#16 [0xF405#16]) 0xFFFD#16).extractLsb' 12 4 = 0xF#4 ∧
    ReadyToFetch (at' 0xFFFE#16 [0xF405#16]) ∧
        (wordIn (at' 0xFFFE#16 [0xF405#16]) 0xFFFE#16).extractLsb' 12 4 = 0xF#4 := by
  unfold ReadyToFetch; decide
theorem witness_FetchBeyondMemoryFaults_lastCompact :
    ReadyToFetch (at' 0xFFFE#16 [0xE000#16]) ∧ Instr.nop.wellFormed = true ∧ Instr.nop.width = 2 ∧
    HoldsAtPc (at' 0xFFFE#16 [0xE000#16]) .nop :=
  ⟨by unfold ReadyToFetch; decide, rfl, rfl,
    holdsAtPc_of_two (b0 := 0x00#8) (b1 := 0xE0#8) (by decide) (by decide) (by decide) (by decide)⟩
theorem witness_FetchBeyondMemoryFaults_lastExtended :
    ReadyToFetch (at' 0xFFFC#16 [0xF405#16, 0xBEEF#16]) ∧ (Instr.li 4#4 0xBEEF#16).width = 4 ∧
    HoldsAtPc (at' 0xFFFC#16 [0xF405#16, 0xBEEF#16]) (.li 4#4 0xBEEF#16) :=
  ⟨by unfold ReadyToFetch; decide, rfl, witness_EncodedInstructionRuns_extended.2.1⟩

/-- At the edges of R110's patterns: a word that is undefined beside one that is not. -/
theorem witness_UndefinedEncodingsFault_compact :
    (isExtended 0x6003#16 = false ∧ isExtended 0xE0F9#16 = false) ∧
    (undefinedCompact 0x6003#16 ∧ ¬ undefinedCompact 0x6002#16) ∧
    (undefinedCompact 0x7002#16 ∧ ¬ undefinedCompact 0x7001#16) ∧
    (undefinedCompact 0xA009#16 ∧ ¬ undefinedCompact 0xA008#16) ∧
    (undefinedCompact 0xB007#16 ∧ ¬ undefinedCompact 0xB006#16) ∧
    (undefinedCompact 0xD002#16 ∧ ¬ undefinedCompact 0xD001#16) ∧
    (undefinedCompact 0xC107#16 ∧ ¬ undefinedCompact 0xC0F7#16) ∧
    (undefinedCompact 0xC018#16 ∧ ¬ undefinedCompact 0xCF08#16) ∧
    (undefinedCompact 0xC109#16 ∧ ¬ undefinedCompact 0xC009#16) ∧
    (undefinedCompact 0xE00A#16 ∧ ¬ undefinedCompact 0xE005#16) ∧
    (undefinedCompact 0xE016#16 ∧ ¬ undefinedCompact 0xEF06#16) ∧
    (undefinedCompact 0xE107#16 ∧ ¬ undefinedCompact 0xE0F9#16) := by
  repeat' apply And.intro
  all_goals first | decide | (unfold undefinedCompact; decide)
theorem witness_UndefinedEncodingsFault_extended :
    (isExtended 0xF00F#16 = true ∧ isExtended 0xFF0B#16 = true) ∧
    (undefinedExtended 0xF00F#16 ∧ ¬ undefinedExtended 0xFFF3#16) ∧
    (undefinedExtended 0xF414#16 ∧ ¬ undefinedExtended 0xF404#16) ∧
    (undefinedExtended 0xF41B#16 ∧ ¬ undefinedExtended 0xFF0B#16) ∧
    (undefinedExtended 0xF10C#16 ∧ ¬ undefinedExtended 0xF00E#16) := by
  repeat' apply And.intro
  all_goals first | decide | (unfold undefinedExtended; decide)
theorem witness_UndefinedEncodingsFault_step :
    ReadyToFetch (at' 0x0100#16 [0x6453#16]) ∧
    fetch (at' 0x0100#16 [0x6453#16]).mem 0x0100#16 = .compact 0x6453#16 ∧ undefinedCompact 0x6453#16 ∧
    ReadyToFetch (at' 0x0100#16 [0xF01B#16, 0x0000#16]) ∧
    fetch (at' 0x0100#16 [0xF01B#16, 0x0000#16]).mem 0x0100#16 = .extended 0xF01B#16 0x0000#16 ∧
    undefinedExtended 0xF01B#16 := by unfold ReadyToFetch undefinedCompact undefinedExtended; decide

/-- A step from a running state ends faulted with this kind, at this address. -/
def faultsWith (s : State) (kind : FaultKind) (addr : Word) : Bool :=
  decide (s.run = .running) && after s fun t => decide (t.run = .faulted kind addr)

theorem witness_FaultCommitsNothing :
    faultsWith (at' 0x0100#16 [0x6453#16]) .undefinedOpcode 0x0100#16 = true ∧
    faultsWith (at' 0xFFFF#16 [0xE000#16]) .truncatedFetch 0xFFFF#16 = true ∧
    faultsWith (start 0x0100#16 [0x6450#16] [(.primary 5#4, 0xFFFF#16)] []) .memOutOfRange 0x0100#16 = true ∧
    faultsWith (start 0x0100#16 [0xD450#16] [(.primary 5#4, 0x0100#16)] []) .portOutOfRange 0x0100#16 = true ∧
    faultsWith (at' 0x0100#16 [0xB450#16 + 3#16]) .divideByZero 0x0100#16 = true ∧
    faultsWith (asked 0x0001#16) .memOutOfRange 0x0100#16 = true := by decide

theorem witness_ExecFaultsExactlyWhenCaused :
    causeOf (.lw 4#4 5#4) (State.reset.setX 5#4 0xFFFF#16) = some (.memOutOfRange, 0xFFFF#16) ∧
    causeOf (.swExt 4#4 0#4 0xFFFF#16) State.reset = some (.memOutOfRange, 0xFFFF#16) ∧
    causeOf (.push 4#4) (State.reset.setX 2#4 0x0001#16) = some (.memOutOfRange, 0xFFFF#16) ∧
    causeOf .reti (State.reset.setX 2#4 0xFFFF#16) = some (.memOutOfRange, 0xFFFF#16) ∧
    causeOf (.inPort 4#4 5#4) (State.reset.setX 5#4 0x0100#16) = some (.portOutOfRange, 0x0100#16) ∧
    causeOf (.outPort 6#4 8#4) (State.reset.setX 6#4 0xFFFF#16) = some (.portOutOfRange, 0xFFFF#16) ∧
    causeOf (.div 4#4 5#4) State.reset = some (.divideByZero, 0x0100#16) ∧
    causeOf (.lw 4#4 5#4) (State.reset.setX 5#4 0xFFFE#16) = none ∧ causeOf .swi State.reset = none ∧
    causeOf (.add 4#4 5#4 6#4) State.reset = none ∧
    ReadyToAccept (asked 0x0001#16) ∧ (asked 0x0001#16).x 2#4 = 0x0001#16 := by
  unfold ReadyToAccept; decide

theorem witness_InterruptEntrySavesAndVectors :
    ReadyToAccept (asked 0x0000#16) ∧ (asked 0x0000#16).x 2#4 ≠ 0x0001#16 ∧
    ReadyToAccept (asked 0x0001#16) ∧ (asked 0x0001#16).x 2#4 = 0x0001#16 := by unfold ReadyToAccept; decide

theorem witness_PendingLatchClearedOnlyByAcceptance :
    ({ adds with env := { adds.env with irqs := [true, false] } } : State).env.irqs = true :: [false] ∧
    ReadyToFetch adds ∧ after adds (fun _ => true) = true ∧
    ReadyToAccept (asked 0x8000#16) ∧ after (asked 0x8000#16) (fun t => decide (t.run = .running)) = true ∧
    ReadyToAccept (asked 0x0001#16) ∧ after (asked 0x0001#16) (fun t => decide (t.run ≠ .running)) = true := by
  unfold ReadyToFetch ReadyToAccept; decide
theorem witness_PendingLatchClearedOnlyByAcceptance_exec :
    exec .nop { adds with ip := true } = .next ({ adds with ip := true }.advance 2#16) := rfl

theorem witness_TerminalStatesHaveNoStep :
    ({ adds with run := .halted } : State).run = .halted ∧
    ({ adds with run := .faulted .divideByZero 0x0100#16 } : State).run = .faulted .divideByZero 0x0100#16 := ⟨rfl, rfl⟩

theorem witness_SoftwareInterruptAndReturn :
    (State.reset.setX 2#4 0x0002#16).x 2#4 ≠ 0x0001#16 ∧ (State.reset.setX 2#4 0x0001#16).x 2#4 = 0x0001#16 ∧
    (State.reset.setX 2#4 0xFFFE#16).x 2#4 ≠ 0xFFFF#16 ∧ (State.reset.setX 2#4 0xFFFF#16).x 2#4 = 0xFFFF#16 := by decide

theorem witness_HandlerReturnResumes_interrupt :
    ∃ (s t h : State) (ret : Word), s.x 2#4 ≠ 0x0001#16 ∧
      ((ReadyToAccept s ∧ step s = .next t ∧ ret = s.pc) ∨ (exec .swi s = .next t ∧ ret = s.pc + 2#16)) ∧
      h.x 2#4 = t.x 2#4 ∧ h.mem.read (t.x 2#4) = t.mem.read (t.x 2#4) ∧
      h.mem.read (t.x 2#4 + 1#16) = t.mem.read (t.x 2#4 + 1#16) :=
  ⟨asked 0x8000#16, _, _, _, by decide, .inl ⟨by unfold ReadyToAccept; decide, rfl, rfl⟩, rfl, rfl, rfl⟩
theorem witness_HandlerReturnResumes_software :
    ∃ (s t h : State) (ret : Word), s.x 2#4 ≠ 0x0001#16 ∧ exec .swi s = .next t ∧ ret = s.pc + 2#16 ∧
      h.x 2#4 = t.x 2#4 ∧ h.mem.read (t.x 2#4) = t.mem.read (t.x 2#4) ∧
      h.mem.read (t.x 2#4 + 1#16) = t.mem.read (t.x 2#4 + 1#16) :=
  ⟨asked 0x8000#16, _, _, _, by decide, rfl, rfl, rfl, rfl, rfl⟩

theorem witness_EnableTakesEffectAtOnce :
    ∃ s t u v : State, s.run = .running ∧ exec .ei s = .next t ∧ t.deliver.ip = true ∧
      exec .reti s = .next u ∧ u.run = .running ∧ u.deliver.ip = true ∧ exec .di s = .next v :=
  ⟨asked 0x8000#16, _, _, _, rfl, rfl, rfl, rfl, rfl, rfl, rfl⟩

/-- The states of the witnesses meet the invariant. -/
theorem witness_StepKeepsInvariant :
    (adds.Inv ∧ after adds (fun _ => true) = true) ∧
    ((asked 0x8000#16).Inv ∧ after (asked 0x8000#16) (fun _ => true) = true) ∧
    ((at' 0x0100#16 [0x6453#16]).Inv ∧ after (at' 0x0100#16 [0x6453#16]) (fun _ => true) = true) :=
  ⟨⟨⟨by decide, by decide, nofun⟩, by decide⟩, ⟨⟨by decide, by decide, nofun⟩, by decide⟩,
    ⟨⟨by decide, by decide, nofun⟩, by decide⟩⟩

theorem witness_ResetMeetsInvariant : Memory.wf [(0x0000, 0x01#8), (0xFFFF, 0xFF#8)] := by decide

theorem witness_ImageLoad :
    bootImage 0xFFFE#16 [] [0x01#8, 0x02#8, 0x03#8] = none ∧
    bootImage 0xFFFE#16 [] [0x01#8, 0x02#8] =
      some (State.resetAt 0xFFFE#16 [(0xFFFE, 0x01#8), (0xFFFF, 0x02#8)]) ∧
    ([0x01#8, 0x02#8] : List Byte)[1]? = some 0x02#8 ∧ (0xFFFE#16 : Word) ≠ 0xFFFF#16 ∧
    (∀ k, k < 2 → (0x0000#16 : Word) ≠ 0xFFFE#16 + BitVec.ofNat 16 k) := by decide

theorem witness_CanonicalMemoryDeterminedByReads :
    ∃ m m' : Memory, m ≠ [] ∧ m.wf ∧ m'.wf ∧ ∀ a, m.read a = m'.read a :=
  ⟨(Memory.write [] 2#16 5#8).write 1#16 7#8, (Memory.write [] 1#16 7#8).write 2#16 5#8, by decide, by decide, by decide,
    fun _ => rfl⟩

theorem witness_RegisterReadAndWrite :
    ({ State.reset with alt := true } : State).alt = true ∧
    ([4#4, 11#4].all fun (i : Reg) => 4 ≤ i.toNat ∧ i.toNat ≤ 11) = true ∧
    ([1#4, 3#4, 12#4, 15#4].all fun (i : Reg) => i ≠ 0#4 ∧ ¬ (true = true ∧ 4 ≤ i.toNat ∧ i.toNat ≤ 11)) = true ∧
    (4#4 ≠ 0#4 ∧ ¬ (State.reset.alt = true ∧ 4 ≤ (4#4 : Reg).toNat ∧ (4#4 : Reg).toNat ≤ 11)) := by decide

theorem witness_MemoryReadAndWrite :
    (0xFFFE#16 : Word) ≠ 0xFFFF#16 ∧ Memory.wf [] ∧ (0x0002#16 : Word) ≠ 0x0000#16 ∧
        (0x0002#16 : Word) ≠ 0x0000#16 + 1#16 ∧
    Memory.writeWord [] 0xFFFE#16 0xBEEF#16 = some [(0xFFFE, 0xEF#8), (0xFFFF, 0xBE#8)] ∧
    Memory.writeWord [] 0xFFFF#16 0xBEEF#16 = none := by decide

theorem witness_StoredCodeIsFetched :
    (with2 4#4 0xE001#16 5#4 0x0102#16).x 5#4 = (with2 4#4 0xE001#16 5#4 0x0102#16).pc + 2#16 ∧
    (with2 4#4 0xE001#16 5#4 0x0102#16).x 5#4 ≠ 0xFFFF#16 ∧
    Compact ((with2 4#4 0xE001#16 5#4 0x0102#16).x 4#4) .halt ∧
    ∃ t, exec (.sw 4#4 5#4) (with2 4#4 0xE001#16 5#4 0x0102#16) = .next t ∧ ReadyToFetch t :=
  ⟨by decide, by decide, by unfold Compact; decide, _, rfl, by unfold ReadyToFetch; decide⟩

theorem witness_OnlyExxSwitchesBank :
    (∃ t u, exec .exx State.reset = .next t ∧ exec .exx t = .next u) ∧
    (∃ t, ReadyToAccept (asked 0x8000#16) ∧ step (asked 0x8000#16) = .next t) :=
  ⟨⟨_, _, rfl, rfl⟩, _, by unfold ReadyToAccept; decide, rfl⟩

theorem witness_ControlRegisterWriters :
    (∃ t, exec (.setiv 5#4) State.reset = .next t ∧ causeOf (.setiv 5#4) State.reset = none) ∧
    (∃ t, exec (.div 4#4 5#4) State.reset = .next t ∧ causeOf (.div 4#4 5#4) State.reset ≠ none) ∧
    (ReadyToAccept (asked 0x8000#16) ∧ after (asked 0x8000#16) (fun t => decide (t.run = .running)) = true) ∧
    (ReadyToAccept (asked 0x0001#16) ∧ after (asked 0x0001#16) (fun t => decide (t.run ≠ .running)) = true) :=
  ⟨⟨_, rfl, rfl⟩, ⟨_, rfl, by decide⟩, by unfold ReadyToAccept; decide, by unfold ReadyToAccept; decide⟩

theorem witness_FlagsChangeOnlyWhereListed :
    (∃ t, exec (.mov 4#4 5#4) State.reset = .next t) ∧
    flagsWritten (.mov 4#4 5#4) = { n := false, z := false, c := false, v := false, h := false } ∧
    (∃ t, exec .ldi State.reset = .next t) ∧ (flagsWritten .ldi).c = false ∧
    (∃ t, exec (.sll 4#4 5#4) State.reset = .next t) ∧ (flagsWritten (.sll 4#4 5#4)).h = false ∧
    (∃ t, ReadyToAccept (asked 0x8000#16) ∧ step (asked 0x8000#16) = .next t) :=
  ⟨⟨_, rfl⟩, rfl, ⟨_, rfl⟩, rfl, ⟨_, rfl⟩, rfl, _, by unfold ReadyToAccept; decide, rfl⟩

theorem witness_OnlyGetfSeesHalfCarry :
    (∀ rd, Instr.add 4#4 5#4 6#4 ≠ .getf rd) ∧ (flagsWritten (.add 4#4 5#4 6#4)).h = true ∧
    (∀ rd, Instr.adc 4#4 5#4 ≠ .getf rd) ∧ (∀ rd, Instr.mov 4#4 5#4 ≠ .getf rd) ∧
    (flagsWritten (.mov 4#4 5#4)).h = false := ⟨nofun, rfl, nofun, nofun, rfl⟩

theorem witness_SpacesReachedByInstructions :
    (∃ t, exec (.lw 4#4 5#4) State.reset = .next t) ∧ mayStore (.lw 4#4 5#4) = false ∧
    usesPort (.lw 4#4 5#4) = false ∧ causeOf (.lw 4#4 5#4) State.reset = none := ⟨⟨_, rfl⟩, rfl, rfl, by decide⟩

theorem witness_ZeroCountTouchesNothing : State.reset.x 4#4 = 0x0000#16 := by decide

theorem witness_DecodeOfEncodeIsIdentity :
    (Instr.j (BitVec.ofInt 12 (-2016))).wellFormed = true ∧ (Instr.call 0xFFFF#16).wellFormed = true := by decide

theorem witness_EncodeOfDecodeIsIdentity :
    decodeBytes [0x20#8, 0x98#8, 0x00#8] = .ok (.j (BitVec.ofInt 12 (-2016))) ∧
    decodeBytes [0x0E#8, 0xF0#8, 0x21#8, 0x43#8] = .ok (.call 0x4321#16) := by decide

theorem witness_DivideInstructions :
    (with2 4#4 0x8000#16 5#4 0xFFFF#16).x 5#4 ≠ 0x0000#16 ∧ (with2 4#4 0x8000#16 5#4 0x0000#16).x 5#4 = 0x0000#16 := by
  decide

theorem witness_ProductAndQuotientLaws :
    (4#4 : Reg) ≠ 0#4 ∧ (with2 4#4 0x8000#16 5#4 0x0001#16).x 5#4 ≠ 0x0000#16 ∧
    ¬ ((with2 4#4 0x8000#16 5#4 0x0001#16).x 4#4 = 0x8000#16 ∧ (with2 4#4 0x8000#16 5#4 0x0001#16).x 5#4 = 0xFFFF#16) ∧
    ((with2 4#4 0x8000#16 5#4 0xFFFF#16).x 4#4 = 0x8000#16 ∧
        (with2 4#4 0x8000#16 5#4 0xFFFF#16).x 5#4 = 0xFFFF#16) := by
  decide

theorem witness_SubFlagsMeaning :
    (subFlags 0x8000#16 0x7FFF#16 true).2 = flags 0b00110 ∧ (subFlags 0x0003#16 0x0005#16 true).2 = flags 0b10000 := by
  decide

/-- Each condition holds of some flags and fails of some: both branches of the statements' `GoesIf`. -/
theorem witness_EqualityAndSignedBranches :
    (flags 0b01000).z = true ∧ (flags 0b00000).z = false ∧ (flags 0b10000).n ≠ (flags 0b10000).v ∧
    (flags 0b10010).n = (flags 0b10010).v ∧ (flags 0b10000).n = true ∧ (flags 0b00010).n = false ∧
    ((flags 0b10010).z = false ∧ (flags 0b10010).n = (flags 0b10010).v) ∧
    ((flags 0b00010).z = true ∨ (flags 0b00010).n ≠ (flags 0b00010).v) ∧
    ((0x8000#16 : Word).toInt < (0x7FFF#16 : Word).toInt ∧ ¬ (0x7FFF#16 : Word).toInt < (0x8000#16 : Word).toInt) := by
  decide
theorem witness_CarryAndOverflowBranches :
    (flags 0b00000).c = false ∧ (flags 0b00100).c = true ∧ (flags 0b00010).v = true ∧ (flags 0b11101).v = false ∧
    ((flags 0b00100).c = true ∧ (flags 0b00100).z = false) ∧ ((flags 0b01100).c = false ∨ (flags 0b01100).z = true) ∧
    ((0x7FFF#16 : Word).toNat < (0x8000#16 : Word).toNat ∧ ¬ (0x8000#16 : Word).toNat < (0x7FFF#16 : Word).toNat) ∧
    (0xFFFF < (0xFFFF#16 : Word).toNat + (0x0001#16 : Word).toNat ∧
      ¬ 0xFFFF < (0xFFFE#16 : Word).toNat + (0x0001#16 : Word).toNat) := by decide
theorem witness_BranchFormsFollowTheTable :
    ([Cond.eq, .ne, .lt, .ge, .ltu, .geu, .mi, .pl, .vs, .vc, .cs, .cc, .gt, .le, .hi, .ls].all fun c =>
      [0b00000#5, 0b11100#5, 0b10000#5, 0b01010#5, 0b00100#5].any (fun b => condHolds c (flags b)) &&
      [0b00000#5, 0b11100#5, 0b10000#5, 0b01010#5, 0b00100#5].any (fun b => !condHolds c (flags b))) = true := by decide

theorem witness_RelativeJumps :
    (0x820#12 : BitVec 12).extractLsb' 5 7 ≠ 0b1000000#7 ∧ (0x7FF#12 : BitVec 12).extractLsb' 5 7 ≠ 0b1000000#7 ∧
    (0x800#12 : BitVec 12).extractLsb' 5 7 = 0b1000000#7 ∧
        (0x81F#12 : BitVec 12).extractLsb' 5 7 = 0b1000000#7 := by decide

theorem witness_LoadInstructions :
    (State.reset.setX 5#4 0xFFFE#16).eaIndirect 5#4 ≠ 0xFFFF#16 ∧
        (State.reset.setX 5#4 0xFFFF#16).eaIndirect 5#4 = 0xFFFF#16 ∧
    (State.reset.setX 5#4 0xFFFF#16).eaDisplaced 5#4 1#16 ≠ 0xFFFF#16 ∧
    (State.reset.setX 5#4 0xFFF8#16).eaDisplaced 5#4 7#16 = 0xFFFF#16 := by decide
theorem witness_StoreInstructions :
    (State.reset.setX 5#4 0x0000#16).eaIndirect 5#4 ≠ 0xFFFF#16 ∧
        (State.reset.setX 5#4 0xFFFF#16).eaIndirect 5#4 = 0xFFFF#16 ∧
    (State.reset.setX 5#4 0xFFFE#16).eaDisplaced 5#4 2#16 ≠ 0xFFFF#16 ∧
    State.reset.eaDisplaced 0#4 0xFFFF#16 = 0xFFFF#16 := by decide
theorem witness_StoreThenLoad :
    (with2 4#4 0xBEEF#16 5#4 0xFFFE#16).x 5#4 ≠ 0xFFFF#16 ∧ (5#4 : Reg) ≠ 0#4 ∧ (7#4 : Reg) ≠ 0#4 := by decide
theorem witness_PushAndPop :
    (State.reset.setX 2#4 0x0002#16).x 2#4 ≠ 0x0001#16 ∧ (4#4 : Reg) ≠ 2#4 ∧ (0#4 : Reg) ≠ 2#4 ∧
    (State.reset.setX 2#4 0x0001#16).x 2#4 = 0x0001#16 ∧ (State.reset.setX 2#4 0xFFFE#16).x 2#4 ≠ 0xFFFF#16 ∧
    (State.reset.setX 2#4 0xFFFF#16).x 2#4 = 0xFFFF#16 := by decide

/-- A count of two, source 0x2000, destination `dst`. -/
def block (dst : Word) : State := (with2 4#4 0x0002#16 5#4 0x2000#16).setX 6#4 dst

theorem witness_SingleCopies : (block 0x3000#16).x 4#4 ≠ 0x0000#16 ∧ State.reset.x 4#4 = 0x0000#16 := by decide
theorem witness_BlockCopyLaws :
    (∀ j, j < ((block 0x2002#16).x 4#4).toNat → ∀ k, k < ((block 0x2002#16).x 4#4).toNat →
      (block 0x2002#16).x 5#4 + BitVec.ofNat 16 j ≠ (block 0x2002#16).x 6#4 + BitVec.ofNat 16 k) ∧
    (∀ j, j < ((block 0x2002#16).x 4#4).toNat → ∀ k, k < ((block 0x2002#16).x 4#4).toNat →
      (block 0x2002#16).x 5#4 - BitVec.ofNat 16 j ≠ (block 0x2002#16).x 6#4 - BitVec.ofNat 16 k) ∧
    (block 0x2002#16).x 4#4 ≠ 0x0000#16 := by decide
theorem witness_FillBlock :
    0xFFFF#16 ∈ addresses 1#16 ((block 0xFFFF#16).x 4#4).toNat ((block 0xFFFF#16).x 6#4) ∧
    0x0000#16 ∈ addresses 1#16 ((block 0xFFFF#16).x 4#4).toNat ((block 0xFFFF#16).x 6#4) := by decide
/-- Key 0x33 at the second of two bytes, then at neither. -/
theorem witness_SearchBlock :
    (1 < 2 ∧ Memory.read [(0x2000, 0x11#8), (0x2001, 0x33#8)] (0x2000#16 + BitVec.ofNat 16 1) = 0x33#8 ∧
      ∀ j, j < 1 → Memory.read [(0x2000, 0x11#8), (0x2001, 0x33#8)] (0x2000#16 + BitVec.ofNat 16 j) ≠ 0x33#8) ∧
    (∀ j, j < 2 → Memory.read [(0x2000, 0x11#8),
        (0x2001, 0x22#8)] (0x2000#16 + BitVec.ofNat 16 j) ≠ 0x33#8) := by decide

theorem witness_PortInstructions :
    255 < ((State.reset.setX 5#4 0x0100#16).x 5#4).toNat ∧ ((State.reset.setX 5#4 0x00FF#16).x 5#4).toNat ≤ 255 ∧
    ((State.reset.setX 5#4 0x00FF#16).x 5#4).extractLsb' 0 8 ∉ portMap.readPorts ∧
    ((State.reset.setX 5#4 0x0010#16).x 5#4).extractLsb' 0 8 ∈ portMap.readPorts ∧
    ((State.reset.setX 6#4 0x0010#16).x 6#4).extractLsb' 0 8 ∉ portMap.writePorts ∧
    ((State.reset.setX 6#4 0x0011#16).x 6#4).extractLsb' 0 8 ∈ portMap.writePorts := by decide

theorem witness_AssembledTransferReachesTarget :
    chooseBranch .eq 0x0100#16 0x0200#16 = some (.beq 127#8) ∧
        chooseBranch .eq 0x0100#16 0x0202#16 = some (.beqFar 127#16) ∧
    chooseBranch .eq 0x0100#16 0x0201#16 = none ∧ chooseJump 0x2000#16 0x1042#16 = some (.j (BitVec.ofInt 12 (-2016))) ∧
    chooseJump 0x2000#16 0x1040#16 = some (.jFar (BitVec.ofInt 16 (-2018))) := by decide

/-! ## Single steps -/

/-- spec/95_test_vectors.md 2.2, `ADD R4,R5,R6`. -/
theorem test_add :
    after (start 0x0100#16 [0x0456#16] [(.primary 5#4, 0x7FFF#16), (.primary 6#4, 0x0001#16)] [])
      (fun t => decide (t.phys (.primary 4#4) = 0x8000#16 ∧ t.pc = 0x0102#16 ∧
      t.flags = flags 0b10011)) = true := by decide

/-- spec/95_test_vectors.md 2.2, `ADD R0,R5,R6`. -/
theorem test_add_discarded :
    after (start 0x0100#16 [0x0056#16] [(.primary 5#4, 0x8000#16), (.primary 6#4, 0x8000#16)] [])
      (fun t => decide (t.x 0#4 = 0x0000#16 ∧ t.pc = 0x0102#16 ∧
      t.flags = flags 0b01110)) = true := by decide

/-- spec/95_test_vectors.md 2.2, `SUB R4,R5,R6`. -/
theorem test_sub :
    after (start 0x0100#16 [0x1456#16] [(.primary 5#4, 0x7FFF#16), (.primary 6#4, 0xFFFF#16)] [])
      (fun t => decide (t.phys (.primary 4#4) = 0x8000#16 ∧ t.pc = 0x0102#16 ∧
      t.flags = flags 0b10011)) = true := by decide

/-- spec/95_test_vectors.md 2.2, `AND R4,R5,R6`. -/
theorem test_and :
    after ({ start 0x0100#16 [0x2456#16] [(.primary 5#4, 0xFF00#16), (.primary 6#4, 0x0FF0#16)] []
           with flags := flags 0b00111 })
      (fun t => decide (t.phys (.primary 4#4) = 0x0F00#16 ∧ t.pc = 0x0102#16 ∧
      t.flags = flags 0b00001)) = true := by decide

/-- spec/95_test_vectors.md 2.2, `OR R4,R5,R6`. -/
theorem test_or :
    after ({ start 0x0100#16 [0x3456#16] [(.primary 5#4, 0x8000#16), (.primary 6#4, 0x0001#16)] []
           with flags := flags 0b00100 })
      (fun t => decide (t.phys (.primary 4#4) = 0x8001#16 ∧ t.pc = 0x0102#16 ∧
      t.flags = flags 0b10000)) = true := by decide

/-- spec/95_test_vectors.md 2.2, `XOR R4,R4,R4`. -/
theorem test_xor_self :
    after ({ start 0x0100#16 [0x4444#16] [(.primary 4#4, 0xBEEF#16)] []
           with flags := flags 0b00101 })
      (fun t => decide (t.phys (.primary 4#4) = 0x0000#16 ∧ t.pc = 0x0102#16 ∧
      t.flags = flags 0b01001)) = true := by decide

/-- spec/95_test_vectors.md 2.3, `ADDI R4,-128`. -/
theorem test_addi :
    after (start 0x0100#16 [0x5480#16] [(.primary 4#4, 0x8000#16)] [])
      (fun t => decide (t.phys (.primary 4#4) = 0x7F80#16 ∧ t.pc = 0x0102#16 ∧
      t.flags = flags 0b00110)) = true := by decide

/-- spec/95_test_vectors.md 2.3, `ADDI R4,R5,0xFFFF`. -/
theorem test_addi_ext :
    after (start 0x0100#16 [0xF450#16, 0xFFFF#16] [(.primary 5#4, 0x0001#16)] [])
      (fun t => decide (t.phys (.primary 4#4) = 0x0000#16 ∧ t.pc = 0x0104#16 ∧
      t.flags = flags 0b01101)) = true := by decide

/-- spec/95_test_vectors.md 2.3, `ANDI R4,R5,0x00FF`. -/
theorem test_andi :
    after ({ start 0x0100#16 [0xF451#16, 0x00FF#16] [(.primary 5#4, 0x1234#16)] []
           with flags := flags 0b00111 })
      (fun t => decide (t.phys (.primary 4#4) = 0x0034#16 ∧ t.pc = 0x0104#16 ∧
      t.flags = flags 0b00001)) = true := by decide

/-- spec/95_test_vectors.md 2.3, `ORI R4,R5,0x8000`. -/
theorem test_ori :
    after ({ start 0x0100#16 [0xF452#16, 0x8000#16] [(.primary 5#4, 0x0001#16)] []
           with flags := flags 0b00100 })
      (fun t => decide (t.phys (.primary 4#4) = 0x8001#16 ∧ t.pc = 0x0104#16 ∧
      t.flags = flags 0b10000)) = true := by decide

/-- spec/95_test_vectors.md 2.3, `XORI R4,R5,0xFFFF`. -/
theorem test_xori :
    after (start 0x0100#16 [0xF453#16, 0xFFFF#16] [(.primary 5#4, 0xFFFF#16)] [])
      (fun t => decide (t.phys (.primary 4#4) = 0x0000#16 ∧ t.pc = 0x0104#16 ∧
      t.flags = flags 0b01000)) = true := by decide

/-- spec/95_test_vectors.md 2.3, `CMPI R4,0xFFFF`. -/
theorem test_cmpi :
    after (start 0x0100#16 [0xF404#16, 0xFFFF#16] [(.primary 4#4, 0x7FFF#16)] [])
      (fun t => decide (t.phys (.primary 4#4) = 0x7FFF#16 ∧ t.pc = 0x0104#16 ∧
      t.flags = flags 0b10011)) = true := by decide

/-- spec/95_test_vectors.md 2.3, `LI R4,0xBEEF`. -/
theorem test_li :
    after ({ start 0x0100#16 [0xF405#16, 0xBEEF#16] [(.primary 4#4, 0x1111#16)] []
           with flags := flags 0b01100 })
      (fun t => decide (t.phys (.primary 4#4) = 0xBEEF#16 ∧ t.pc = 0x0104#16 ∧
      t.flags = flags 0b01100)) = true := by decide

/-- spec/95_test_vectors.md 2.3, `MOV R4,R5`. -/
theorem test_mov :
    after ({ start 0x0100#16 [0xC450#16] [(.primary 5#4, 0x8000#16)] []
           with flags := flags 0b01000 })
      (fun t => decide (t.phys (.primary 4#4) = 0x8000#16 ∧ t.pc = 0x0102#16 ∧
      t.flags = flags 0b01000)) = true := by decide

/-- spec/95_test_vectors.md 2.3, `NOT R4,R5`. -/
theorem test_not :
    after ({ start 0x0100#16 [0xC451#16] [(.primary 5#4, 0x00FF#16)] []
           with flags := flags 0b00111 })
      (fun t => decide (t.phys (.primary 4#4) = 0xFF00#16 ∧ t.pc = 0x0102#16 ∧
      t.flags = flags 0b10001)) = true := by decide

/-- spec/95_test_vectors.md 2.3, `NEG R4,R5`. -/
theorem test_neg :
    after (start 0x0100#16 [0xC452#16] [(.primary 5#4, 0x8000#16)] [])
      (fun t => decide (t.phys (.primary 4#4) = 0x8000#16 ∧ t.pc = 0x0102#16 ∧
      t.flags = flags 0b10011)) = true := by decide

/-- spec/95_test_vectors.md 2.3, `ADC R4,R5`. -/
theorem test_adc :
    after ({ start 0x0100#16 [0xC453#16] [(.primary 4#4, 0x7FFF#16), (.primary 5#4, 0x0000#16)] []
           with flags := flags 0b00100 })
      (fun t => decide (t.phys (.primary 4#4) = 0x8000#16 ∧ t.pc = 0x0102#16 ∧
      t.flags = flags 0b10011)) = true := by decide

/-- spec/95_test_vectors.md 2.3, `SBC R4,R5`. -/
theorem test_sbc :
    after (start 0x0100#16 [0xC454#16] [(.primary 4#4, 0x8000#16), (.primary 5#4, 0x0000#16)] [])
      (fun t => decide (t.phys (.primary 4#4) = 0x7FFF#16 ∧ t.pc = 0x0102#16 ∧
      t.flags = flags 0b00110)) = true := by decide

/-- spec/95_test_vectors.md 2.3, `CMP R4,R5`. -/
theorem test_cmp :
    after (start 0x0100#16 [0xC455#16] [(.primary 4#4, 0x7FFF#16), (.primary 5#4, 0x8000#16)] [])
      (fun t => decide (t.phys (.primary 4#4) = 0x7FFF#16 ∧ t.pc = 0x0102#16 ∧
      t.flags = flags 0b10011)) = true := by decide

/-- spec/95_test_vectors.md 2.3, `TST R4,R5`. -/
theorem test_tst :
    after ({ start 0x0100#16 [0xC456#16] [(.primary 4#4, 0x00F0#16), (.primary 5#4, 0x0F0F#16)] []
           with flags := flags 0b00111 })
      (fun t => decide (t.phys (.primary 4#4) = 0x00F0#16 ∧ t.pc = 0x0102#16 ∧
      t.flags = flags 0b01001)) = true := by decide

/-- spec/95_test_vectors.md 2.4, `SLL R4,R5`. -/
theorem test_sll :
    after (start 0x0100#16 [0xA450#16] [(.primary 5#4, 0x8001#16)] [])
      (fun t => decide (t.phys (.primary 4#4) = 0x0002#16 ∧ t.pc = 0x0102#16 ∧
      t.flags = flags 0b00100)) = true := by decide

/-- spec/95_test_vectors.md 2.4, `SRL R4,R5`. -/
theorem test_srl :
    after (start 0x0100#16 [0xA451#16] [(.primary 5#4, 0x8001#16)] [])
      (fun t => decide (t.phys (.primary 4#4) = 0x4000#16 ∧ t.pc = 0x0102#16 ∧
      t.flags = flags 0b00100)) = true := by decide

/-- spec/95_test_vectors.md 2.4, `SRA R4,R5`. -/
theorem test_sra :
    after (start 0x0100#16 [0xA452#16] [(.primary 5#4, 0x8001#16)] [])
      (fun t => decide (t.phys (.primary 4#4) = 0xC000#16 ∧ t.pc = 0x0102#16 ∧
      t.flags = flags 0b10100)) = true := by decide

/-- spec/95_test_vectors.md 2.4, `ROL R4,R5`. -/
theorem test_rol :
    after (start 0x0100#16 [0xA453#16] [(.primary 5#4, 0x8001#16)] [])
      (fun t => decide (t.phys (.primary 4#4) = 0x0003#16 ∧ t.pc = 0x0102#16 ∧
      t.flags = flags 0b00100)) = true := by decide

/-- spec/95_test_vectors.md 2.4, `ROR R4,R5`. -/
theorem test_ror :
    after (start 0x0100#16 [0xA454#16] [(.primary 5#4, 0x8001#16)] [])
      (fun t => decide (t.phys (.primary 4#4) = 0xC000#16 ∧ t.pc = 0x0102#16 ∧
      t.flags = flags 0b10100)) = true := by decide

/-- spec/95_test_vectors.md 2.4, `RCL R4,R5`. -/
theorem test_rcl :
    after ({ start 0x0100#16 [0xA455#16] [(.primary 5#4, 0x8001#16)] []
           with flags := flags 0b00100 })
      (fun t => decide (t.phys (.primary 4#4) = 0x0003#16 ∧ t.pc = 0x0102#16 ∧
      t.flags = flags 0b00100)) = true := by decide

/-- spec/95_test_vectors.md 2.4, `RCR R4,R5`. -/
theorem test_rcr :
    after ({ start 0x0100#16 [0xA456#16] [(.primary 5#4, 0x8001#16)] []
           with flags := flags 0b00100 })
      (fun t => decide (t.phys (.primary 4#4) = 0xC000#16 ∧ t.pc = 0x0102#16 ∧
      t.flags = flags 0b10100)) = true := by decide

/-- spec/95_test_vectors.md 2.4, `SWAP R4,R5`. -/
theorem test_swap :
    after ({ start 0x0100#16 [0xA457#16] [(.primary 5#4, 0x1280#16)] []
           with flags := flags 0b10100 })
      (fun t => decide (t.phys (.primary 4#4) = 0x8012#16 ∧ t.pc = 0x0102#16 ∧
      t.flags = flags 0b10100)) = true := by decide

/-- spec/95_test_vectors.md 2.4, `SEXT R4,R5`. -/
theorem test_sext :
    after ({ start 0x0100#16 [0xA458#16] [(.primary 5#4, 0x1280#16)] []
           with flags := flags 0b01000 })
      (fun t => decide (t.phys (.primary 4#4) = 0xFF80#16 ∧ t.pc = 0x0102#16 ∧
      t.flags = flags 0b01000)) = true := by decide

/-- spec/95_test_vectors.md 2.5, `MUL R4,R5`. -/
theorem test_mul :
    after ({ start 0x0100#16 [0xB450#16] [(.primary 4#4, 0x1234#16), (.primary 5#4, 0x5678#16)] []
           with flags := flags 0b11111 })
      (fun t => decide (t.phys (.primary 4#4) = 0x0060#16 ∧ t.pc = 0x0102#16 ∧
      t.flags = flags 0b11111)) = true := by decide

/-- spec/95_test_vectors.md 2.5, `MULH R4,R5`. -/
theorem test_mulh :
    after (start 0x0100#16 [0xB451#16] [(.primary 4#4, 0xFFF9#16), (.primary 5#4, 0x0003#16)] [])
      (fun t => decide (t.phys (.primary 4#4) = 0xFFFF#16 ∧ t.pc = 0x0102#16)) = true := by decide

/-- spec/95_test_vectors.md 2.5, `MULHU R4,R5`. -/
theorem test_mulhu :
    after (start 0x0100#16 [0xB452#16] [(.primary 4#4, 0xFFF9#16), (.primary 5#4, 0x0003#16)] [])
      (fun t => decide (t.phys (.primary 4#4) = 0x0002#16 ∧ t.pc = 0x0102#16)) = true := by decide

/-- spec/95_test_vectors.md 2.5, `DIV R4,R5`. -/
theorem test_div :
    after (start 0x0100#16 [0xB453#16] [(.primary 4#4, 0xFFF9#16), (.primary 5#4, 0x0002#16)] [])
      (fun t => decide (t.phys (.primary 4#4) = 0xFFFD#16 ∧ t.pc = 0x0102#16)) = true := by decide

/-- spec/95_test_vectors.md 2.5, `DIV R4,R5`. -/
theorem test_div_overflow :
    after (start 0x0100#16 [0xB453#16] [(.primary 4#4, 0x8000#16), (.primary 5#4, 0xFFFF#16)] [])
      (fun t => decide (t.phys (.primary 4#4) = 0x8000#16 ∧ t.pc = 0x0102#16)) = true := by decide

/-- spec/95_test_vectors.md 2.5, `DIV R4,R5`. -/
theorem test_div_by_zero :
    after (start 0x0100#16 [0xB453#16] [(.primary 4#4, 0x0005#16), (.primary 5#4, 0x0000#16)] [])
      (fun t => decide (t.phys (.primary 4#4) = 0x0005#16 ∧ t.pc = 0x0100#16 ∧
      t.run = .faulted .divideByZero 0x0100#16)) = true := by decide

/-- spec/95_test_vectors.md 2.5, `DIVU R4,R5`. -/
theorem test_divu :
    after (start 0x0100#16 [0xB454#16] [(.primary 4#4, 0xFFF9#16), (.primary 5#4, 0x0003#16)] [])
      (fun t => decide (t.phys (.primary 4#4) = 0x5553#16 ∧ t.pc = 0x0102#16)) = true := by decide

/-- spec/95_test_vectors.md 2.5, `REM R4,R5`. -/
theorem test_rem :
    after (start 0x0100#16 [0xB455#16] [(.primary 4#4, 0xFFF9#16), (.primary 5#4, 0x0002#16)] [])
      (fun t => decide (t.phys (.primary 4#4) = 0xFFFF#16 ∧ t.pc = 0x0102#16)) = true := by decide

/-- spec/95_test_vectors.md 2.5, `REMU R4,R5`. -/
theorem test_remu :
    after (start 0x0100#16 [0xB456#16] [(.primary 4#4, 0x0007#16), (.primary 5#4, 0xFFFD#16)] [])
      (fun t => decide (t.phys (.primary 4#4) = 0x0007#16 ∧ t.pc = 0x0102#16)) = true := by decide

/-- spec/95_test_vectors.md 2.6, `BEQ -128`. -/
theorem test_beq_backward_wraps :
    after ({ start 0x0010#16 [0x8080#16] [] []
           with flags := flags 0b01000 })
      (fun t => decide (t.pc = 0xFF12#16)) = true := by decide

/-- spec/95_test_vectors.md 2.6, `BNE +1 (not taken)`. -/
theorem test_bne_not_taken :
    after ({ start 0xFFFE#16 [0x8101#16] [] []
           with flags := flags 0b01000 })
      (fun t => decide (t.pc = 0x0000#16)) = true := by decide

/-- spec/95_test_vectors.md 2.6, `BEQ far +0x1000`. -/
theorem test_beq_far :
    after ({ start 0x1000#16 [0xF00B#16, 0x1000#16] [] []
           with flags := flags 0b01000 })
      (fun t => decide (t.pc = 0x3004#16)) = true := by decide

/-- spec/95_test_vectors.md 2.6, `BCS far 0x8000`. -/
theorem test_bcs_far_smallest :
    after ({ start 0x0100#16 [0xFA0B#16, 0x8000#16] [] []
           with flags := flags 0b00100 })
      (fun t => decide (t.pc = 0x0104#16)) = true := by decide

/-- spec/95_test_vectors.md 1.1, `J -50 words`. -/
theorem test_j_backward :
    after (start 0x0200#16 [0x9FCE#16] [] [])
      (fun t => decide (t.pc = 0x019E#16)) = true := by decide

/-- spec/95_test_vectors.md 2.6, `J -2016`. -/
theorem test_j_smallest :
    after (start 0x0100#16 [0x9820#16] [] [])
      (fun t => decide (t.pc = 0xF142#16)) = true := by decide

/-- spec/95_test_vectors.md 2.6, `J far +0x7FFF`. -/
theorem test_j_far :
    after (start 0x0100#16 [0xF00C#16, 0x7FFF#16] [] [])
      (fun t => decide (t.pc = 0x0102#16)) = true := by decide

/-- spec/95_test_vectors.md 2.6, `JR R5 (odd target)`. -/
theorem test_jr :
    after (start 0x0100#16 [0x9805#16] [(.primary 5#4, 0x1235#16)] [])
      (fun t => decide (t.pc = 0x1235#16)) = true := by decide

/-- spec/95_test_vectors.md 2.6, `JALR R1`. -/
theorem test_jalr_link_source :
    after (start 0x0100#16 [0x9811#16] [(.primary 1#4, 0x4000#16)] [])
      (fun t => decide (t.phys (.primary 1#4) = 0x0102#16 ∧ t.pc = 0x4000#16)) = true := by decide

/-- spec/95_test_vectors.md 2.6, `JMP 0x4321`. -/
theorem test_jmp :
    after (start 0x0100#16 [0xF00D#16, 0x4321#16] [] [])
      (fun t => decide (t.pc = 0x4321#16)) = true := by decide

/-- spec/95_test_vectors.md 2.6, `CALL 0x4321`. -/
theorem test_call :
    after (start 0x0100#16 [0xF00E#16, 0x4321#16] [] [])
      (fun t => decide (t.phys (.primary 1#4) = 0x0104#16 ∧ t.pc = 0x4321#16)) = true := by decide

/-- spec/95_test_vectors.md 2.7, `LW R4,(R5) (odd address)`. -/
theorem test_lw_odd :
    after (start 0x0100#16 [0x6450#16] [(.primary 5#4, 0x2001#16)] [(0x2001#16, 0xCD#8), (0x2002#16, 0xAB#8)])
      (fun t => decide (t.phys (.primary 4#4) = 0xABCD#16 ∧ t.pc = 0x0102#16)) = true := by decide

/-- spec/95_test_vectors.md 2.7, `LW R4,(R5)`. -/
theorem test_lw_top :
    after (start 0x0100#16 [0x6450#16] [(.primary 4#4, 0x1111#16), (.primary 5#4, 0xFFFF#16)] [(0xFFFF#16, 0x99#8)])
      (fun t => decide (t.phys (.primary 4#4) = 0x1111#16 ∧ t.pc = 0x0100#16 ∧
      t.run = .faulted .memOutOfRange 0x0100#16)) = true := by decide

/-- spec/95_test_vectors.md 2.7, `LB R4,(R5)`. -/
theorem test_lb :
    after (start 0x0100#16 [0x6451#16] [(.primary 5#4, 0x2000#16)] [(0x2000#16, 0x80#8)])
      (fun t => decide (t.phys (.primary 4#4) = 0xFF80#16 ∧ t.pc = 0x0102#16)) = true := by decide

/-- spec/95_test_vectors.md 2.7, `LBU R4,(R5)`. -/
theorem test_lbu :
    after (start 0x0100#16 [0x6452#16] [(.primary 5#4, 0x2000#16)] [(0x2000#16, 0x80#8)])
      (fun t => decide (t.phys (.primary 4#4) = 0x0080#16 ∧ t.pc = 0x0102#16)) = true := by decide

/-- spec/95_test_vectors.md 2.7, `SW R4,(R5)`. -/
theorem test_sw :
    after (start 0x0100#16 [0x7450#16] [(.primary 4#4, 0xBEEF#16), (.primary 5#4, 0xFFFE#16)] [])
      (fun t => decide (t.pc = 0x0102#16 ∧ t.mem.read 0xFFFE#16 = 0xEF#8 ∧
      t.mem.read 0xFFFF#16 = 0xBE#8)) = true := by decide

/-- spec/95_test_vectors.md 2.7, `SW R4,(R5)`. -/
theorem test_sw_top :
    after (start 0x0100#16 [0x7450#16] [(.primary 4#4, 0xBEEF#16), (.primary 5#4, 0xFFFF#16)] [])
      (fun t => decide (t.pc = 0x0100#16 ∧ t.mem.read 0xFFFF#16 = 0x00#8 ∧
      t.mem.read 0x0000#16 = 0x00#8 ∧ t.run = .faulted .memOutOfRange 0x0100#16)) = true := by decide

/-- spec/95_test_vectors.md 2.7, `SB R4,(R5)`. -/
theorem test_sb :
    after (start 0x0100#16 [0x7451#16] [(.primary 4#4, 0xBEEF#16), (.primary 5#4, 0x2000#16)] [(0x2001#16, 0x55#8)])
      (fun t => decide (t.pc = 0x0102#16 ∧ t.mem.read 0x2000#16 = 0xEF#8 ∧
      t.mem.read 0x2001#16 = 0x55#8)) = true := by decide

/-- spec/95_test_vectors.md 2.7, `LW R4,0x0010(R5) (address wraps)`. -/
theorem test_lw_ext_wraps :
    after (start 0x0100#16 [0xF456#16, 0x0010#16] [(.primary 5#4, 0xFFF8#16)]
        [(0x0008#16, 0x44#8), (0x0009#16, 0x33#8)])
      (fun t => decide (t.phys (.primary 4#4) = 0x3344#16 ∧ t.pc = 0x0104#16)) = true := by decide

/-- spec/95_test_vectors.md 2.7, `LB R4,3(R5)`. -/
theorem test_lb_ext :
    after (start 0x0100#16 [0xF457#16, 0x0003#16] [(.primary 5#4, 0x2000#16)] [(0x2003#16, 0xF0#8)])
      (fun t => decide (t.phys (.primary 4#4) = 0xFFF0#16 ∧ t.pc = 0x0104#16)) = true := by decide

/-- spec/95_test_vectors.md 2.7, `LBU R4,3(R5)`. -/
theorem test_lbu_ext :
    after (start 0x0100#16 [0xF458#16, 0x0003#16] [(.primary 5#4, 0x2000#16)] [(0x2003#16, 0xF0#8)])
      (fun t => decide (t.phys (.primary 4#4) = 0x00F0#16 ∧ t.pc = 0x0104#16)) = true := by decide

/-- spec/95_test_vectors.md 2.7, `SW R4,0x0010(R5)`. -/
theorem test_sw_ext :
    after (start 0x0100#16 [0xF459#16, 0x0010#16] [(.primary 4#4, 0x1234#16), (.primary 5#4, 0x2000#16)] [])
      (fun t => decide (t.pc = 0x0104#16 ∧ t.mem.read 0x2010#16 = 0x34#8 ∧
      t.mem.read 0x2011#16 = 0x12#8)) = true := by decide

/-- spec/95_test_vectors.md 2.7, `SB R4,4(R5)`. -/
theorem test_sb_ext :
    after (start 0x0100#16 [0xF45A#16, 0x0004#16] [(.primary 4#4, 0xCAFE#16), (.primary 5#4, 0x2000#16)] [])
      (fun t => decide (t.pc = 0x0104#16 ∧ t.mem.read 0x2004#16 = 0xFE#8 ∧
      t.mem.read 0x2005#16 = 0x00#8)) = true := by decide

/-- spec/95_test_vectors.md 2.7, `PUSH R2 (old value pushed)`. -/
theorem test_push_old_sp :
    after (start 0x0100#16 [0xC027#16] [(.primary 2#4, 0x8000#16)] [])
      (fun t => decide (t.phys (.primary 2#4) = 0x7FFE#16 ∧ t.pc = 0x0102#16 ∧
      t.mem.read 0x7FFF#16 = 0x80#8 ∧ t.mem.read 0x7FFE#16 = 0x00#8)) = true := by decide

/-- spec/95_test_vectors.md 2.7, `PUSH R4`. -/
theorem test_push_range :
    after (start 0x0100#16 [0xC047#16] [(.primary 2#4, 0x0001#16), (.primary 4#4, 0x1234#16)] [])
      (fun t => decide (t.phys (.primary 2#4) = 0x0001#16 ∧ t.pc = 0x0100#16 ∧
      t.mem.read 0xFFFF#16 = 0x00#8 ∧ t.mem.read 0x0000#16 = 0x00#8 ∧
      t.run = .faulted .memOutOfRange 0x0100#16)) = true := by decide

/-- spec/95_test_vectors.md 2.7, `POP R4`. -/
theorem test_pop :
    after (start 0x0100#16 [0xC408#16] [(.primary 2#4, 0x7FFE#16)] [(0x7FFE#16, 0x34#8), (0x7FFF#16, 0x12#8)])
      (fun t => decide (t.phys (.primary 2#4) = 0x8000#16 ∧ t.phys (.primary 4#4) = 0x1234#16 ∧
      t.pc = 0x0102#16)) = true := by decide

/-- spec/95_test_vectors.md 2.7, `POP R2`. -/
theorem test_pop_into_sp :
    after (start 0x0100#16 [0xC208#16] [(.primary 2#4, 0x7FFE#16)] [(0x7FFE#16, 0x00#8), (0x7FFF#16, 0x90#8)])
      (fun t => decide (t.phys (.primary 2#4) = 0x9000#16 ∧ t.pc = 0x0102#16)) = true := by decide

/-- spec/95_test_vectors.md 2.10, `EXX`. -/
theorem test_exx :
    after ({ start 0x0100#16 [0xC009#16] [(.primary 4#4, 0x1111#16), (.shadow 0#3, 0x2222#16)] []
           with alt := true })
      (fun t => decide (t.phys (.primary 4#4) = 0x1111#16 ∧ t.phys (.shadow 0#3) = 0x2222#16 ∧
      t.alt = false ∧ t.pc = 0x0102#16)) = true := by decide

/-- spec/95_test_vectors.md 2.10, `MOV R3,R11 with ALT=1`. -/
theorem test_mov_alternate :
    after ({ start 0x0100#16 [0xC3B0#16] [(.primary 11#4, 0xBBBB#16), (.shadow 7#3, 0x7777#16)] []
           with alt := true })
      (fun t => decide (t.phys (.primary 3#4) = 0x7777#16 ∧ t.phys (.primary 11#4) = 0xBBBB#16 ∧
      t.phys (.shadow 7#3) = 0x7777#16 ∧ t.pc = 0x0102#16)) = true := by decide

/-- spec/95_test_vectors.md 2.8, `LDI`. -/
theorem test_ldi :
    after ({ start 0x0100#16 [0xC00A#16]
        [(.primary 4#4, 0x0001#16), (.primary 5#4, 0x2000#16), (.primary 6#4, 0x3000#16)]
        [(0x2000#16, 0x11#8), (0x2001#16, 0x22#8), (0x2002#16, 0x33#8), (0x2003#16, 0x44#8)]
           with flags := flags 0b10111 })
      (fun t => decide (t.phys (.primary 4#4) = 0x0000#16 ∧ t.phys (.primary 5#4) = 0x2001#16 ∧
      t.phys (.primary 6#4) = 0x3001#16 ∧ t.pc = 0x0102#16 ∧
      t.flags = flags 0b11111 ∧ t.mem.read 0x3000#16 = 0x11#8)) = true := by decide

/-- spec/95_test_vectors.md 2.8, `LDD`. -/
theorem test_ldd :
    after ({ start 0x0100#16 [0xC00B#16]
        [(.primary 4#4, 0x0003#16), (.primary 5#4, 0x2003#16), (.primary 6#4, 0x3003#16)]
        [(0x2000#16, 0x11#8), (0x2001#16, 0x22#8), (0x2002#16, 0x33#8), (0x2003#16, 0x44#8)]
           with flags := flags 0b10111 })
      (fun t => decide (t.phys (.primary 4#4) = 0x0002#16 ∧ t.phys (.primary 5#4) = 0x2002#16 ∧
      t.phys (.primary 6#4) = 0x3002#16 ∧ t.pc = 0x0102#16 ∧
      t.flags = flags 0b10111 ∧ t.mem.read 0x3003#16 = 0x44#8)) = true := by decide

/-- spec/95_test_vectors.md 2.8, `LDIR (overlap, dst = src+1)`. -/
theorem test_ldir_overlap :
    after ({ start 0x0100#16 [0xC00C#16]
        [(.primary 4#4, 0x0003#16), (.primary 5#4, 0x2000#16), (.primary 6#4, 0x2001#16)]
        [(0x2000#16, 0x11#8), (0x2001#16, 0x22#8), (0x2002#16, 0x33#8), (0x2003#16, 0x44#8)]
           with flags := flags 0b10111 })
      (fun t => decide (t.phys (.primary 4#4) = 0x0000#16 ∧ t.phys (.primary 5#4) = 0x2003#16 ∧
      t.phys (.primary 6#4) = 0x2004#16 ∧ t.pc = 0x0102#16 ∧
      t.flags = flags 0b11111 ∧ t.mem.read 0x2001#16 = 0x11#8 ∧
      t.mem.read 0x2002#16 = 0x11#8 ∧ t.mem.read 0x2003#16 = 0x11#8)) = true := by decide

/-- spec/95_test_vectors.md 2.8, `LDIR`. -/
theorem test_ldir_zero :
    after ({ start 0x0100#16 [0xC00C#16]
        [(.primary 4#4, 0x0000#16), (.primary 5#4, 0x2000#16), (.primary 6#4, 0x3000#16)]
        [(0x2000#16, 0x11#8), (0x2001#16, 0x22#8), (0x2002#16, 0x33#8), (0x2003#16, 0x44#8)]
           with flags := flags 0b10111 })
      (fun t => decide (t.phys (.primary 4#4) = 0x0000#16 ∧ t.phys (.primary 5#4) = 0x2000#16 ∧
      t.phys (.primary 6#4) = 0x3000#16 ∧ t.pc = 0x0102#16 ∧
      t.flags = flags 0b11111)) = true := by decide

/-- spec/95_test_vectors.md 2.8, `LDDR (overlap, dst = src+1)`. -/
theorem test_lddr :
    after ({ start 0x0100#16 [0xC00D#16]
        [(.primary 4#4, 0x0003#16), (.primary 5#4, 0x2002#16), (.primary 6#4, 0x2003#16)]
        [(0x2000#16, 0x11#8), (0x2001#16, 0x22#8), (0x2002#16, 0x33#8), (0x2003#16, 0x44#8)]
           with flags := flags 0b10111 })
      (fun t => decide (t.phys (.primary 4#4) = 0x0000#16 ∧ t.phys (.primary 5#4) = 0x1FFF#16 ∧
      t.phys (.primary 6#4) = 0x2000#16 ∧ t.pc = 0x0102#16 ∧
      t.flags = flags 0b11111 ∧ t.mem.read 0x2001#16 = 0x11#8 ∧
      t.mem.read 0x2002#16 = 0x22#8 ∧ t.mem.read 0x2003#16 = 0x33#8)) = true := by decide

/-- spec/95_test_vectors.md 2.8, `FILL`. -/
theorem test_fill_wraps :
    after ({ start 0x0100#16 [0xC00E#16]
        [(.primary 4#4, 0x0002#16), (.primary 6#4, 0xFFFF#16), (.primary 7#4, 0x00EE#16)] []
           with flags := flags 0b10111 })
      (fun t => decide (t.phys (.primary 4#4) = 0x0000#16 ∧ t.phys (.primary 6#4) = 0x0001#16 ∧
      t.pc = 0x0102#16 ∧ t.flags = flags 0b11111 ∧
      t.mem.read 0x0000#16 = 0xEE#8 ∧ t.mem.read 0xFFFF#16 = 0xEE#8)) = true := by decide

/-- spec/95_test_vectors.md 2.8, `CPIR (found, count left)`. -/
theorem test_cpir_found :
    after ({ start 0x0100#16 [0xC00F#16]
        [(.primary 4#4, 0x0004#16), (.primary 5#4, 0x2000#16), (.primary 7#4, 0xFF33#16)]
        [(0x2000#16, 0x11#8), (0x2001#16, 0x22#8), (0x2002#16, 0x33#8), (0x2003#16, 0x44#8)]
           with flags := flags 0b10111 })
      (fun t => decide (t.phys (.primary 4#4) = 0x0001#16 ∧ t.phys (.primary 5#4) = 0x2003#16 ∧
      t.pc = 0x0102#16 ∧ t.flags = flags 0b10111)) = true := by decide

/-- spec/95_test_vectors.md 2.8, `CPIR (not found)`. -/
theorem test_cpir_not_found :
    after ({ start 0x0100#16 [0xC00F#16]
        [(.primary 4#4, 0x0004#16), (.primary 5#4, 0x2000#16), (.primary 7#4, 0x0099#16)]
        [(0x2000#16, 0x11#8), (0x2001#16, 0x22#8), (0x2002#16, 0x33#8), (0x2003#16, 0x44#8)]
           with flags := flags 0b10111 })
      (fun t => decide (t.phys (.primary 4#4) = 0x0000#16 ∧ t.phys (.primary 5#4) = 0x2004#16 ∧
      t.pc = 0x0102#16 ∧ t.flags = flags 0b11011)) = true := by decide

/-- spec/95_test_vectors.md 2.9, `IN R4,(R5)`. -/
theorem test_in_mapped :
    after ({ start 0x0100#16 [0xD450#16] [(.primary 5#4, 0x0010#16)] []
           with flags := flags 0b10100, env := portMap })
      (fun t => decide (t.phys (.primary 4#4) = 0x0081#16 ∧ t.pc = 0x0102#16 ∧
      t.flags = flags 0b10100 ∧ t.env.outputs = [.portRead 0x10#8 0x81#8])) = true := by decide

/-- spec/95_test_vectors.md 2.9, `IN R4,(R5)`. -/
theorem test_in_range :
    after ({ start 0x0100#16 [0xD450#16] [(.primary 4#4, 0x7777#16), (.primary 5#4, 0x0100#16)] []
           with env := portMap })
      (fun t => decide (t.phys (.primary 4#4) = 0x7777#16 ∧ t.pc = 0x0100#16 ∧
      t.run = .faulted .portOutOfRange 0x0100#16)) = true := by decide

/-- spec/95_test_vectors.md 2.9, `OUT (R6),R8`. -/
theorem test_out_mapped :
    after ({ start 0x0100#16 [0xD681#16] [(.primary 6#4, 0x0011#16), (.primary 8#4, 0x1241#16)] []
           with env := portMap })
      (fun t => decide (t.pc = 0x0102#16 ∧ t.env.outputs = [.portWrite 0x11#8 0x41#8])) = true := by decide

/-- spec/95_test_vectors.md 2.9, `OUT (R6),R8`. -/
theorem test_out_unmapped :
    after ({ start 0x0100#16 [0xD681#16] [(.primary 6#4, 0x0012#16), (.primary 8#4, 0x1241#16)] []
           with env := portMap })
      (fun t => decide (t.pc = 0x0102#16 ∧ t.env.outputs = [])) = true := by decide

/-- spec/95_test_vectors.md 2.10, `NOP`. -/
theorem test_nop :
    after ({ start 0x0100#16 [0xE000#16] [] []
           with flags := flags 0b11111, ie := true })
      (fun t => decide (t.pc = 0x0102#16 ∧ t.flags = flags 0b11111)) = true := by decide

/-- spec/95_test_vectors.md 2.10, `HALT`. -/
theorem test_halt :
    after (start 0x0100#16 [0xE001#16] [] [])
      (fun t => decide (t.pc = 0x0100#16 ∧ t.run = .halted)) = true := by decide

/-- spec/95_test_vectors.md 2.11, `EI (with request pending)`. -/
theorem test_ei :
    after ({ start 0x0100#16 [0xE002#16] [] []
           with ip := true })
      (fun t => decide (t.ie = true ∧ t.ip = true ∧
      t.pc = 0x0102#16)) = true := by decide

/-- spec/95_test_vectors.md 2.10, `DI`. -/
theorem test_di :
    after ({ start 0x0100#16 [0xE003#16] [] []
           with ip := true })
      (fun t => decide (t.ie = false ∧ t.ip = true ∧
      t.pc = 0x0102#16)) = true := by decide

/-- spec/95_test_vectors.md 2.11, `SWI (IE=0, IP=1)`. -/
theorem test_swi :
    after ({ start 0x0100#16 [0xE004#16] [(.primary 2#4, 0x8000#16)] []
           with ip := true, iv := 0x0200#16 })
      (fun t => decide (t.phys (.primary 2#4) = 0x7FFE#16 ∧ t.ie = false ∧
      t.ip = true ∧ t.pc = 0x0200#16 ∧
      t.mem.read 0x7FFE#16 = 0x02#8 ∧ t.mem.read 0x7FFF#16 = 0x01#8)) = true := by decide

/-- spec/95_test_vectors.md 2.11, `RETI`. -/
theorem test_reti :
    after (start 0x0100#16 [0xE005#16] [(.primary 2#4, 0x7FFE#16)] [(0x7FFE#16, 0x02#8), (0x7FFF#16, 0x01#8)])
      (fun t => decide (t.phys (.primary 2#4) = 0x8000#16 ∧ t.ie = true ∧
      t.pc = 0x0102#16)) = true := by decide

/-- spec/95_test_vectors.md 2.10, `GETF R4`. -/
theorem test_getf :
    after ({ start 0x0100#16 [0xE406#16] [(.primary 4#4, 0xFFFF#16)] []
           with flags := flags 0b10101 })
      (fun t => decide (t.phys (.primary 4#4) = 0x00A8#16 ∧ t.pc = 0x0102#16 ∧
      t.flags = flags 0b10101)) = true := by decide

/-- spec/95_test_vectors.md 2.10, `SETF R5`. -/
theorem test_setf :
    after ({ start 0x0100#16 [0xE057#16] [(.primary 5#4, 0x0048#16)] []
           with flags := flags 0b10100 })
      (fun t => decide (t.pc = 0x0102#16 ∧ t.flags = flags 0b01001)) = true := by decide

/-- spec/95_test_vectors.md 2.10, `GETIV R4`. -/
theorem test_getiv :
    after ({ start 0x0100#16 [0xE408#16] [] []
           with iv := 0x1234#16 })
      (fun t => decide (t.phys (.primary 4#4) = 0x1234#16 ∧ t.pc = 0x0102#16)) = true := by decide

/-- spec/95_test_vectors.md 2.10, `SETIV R5`. -/
theorem test_setiv :
    after (start 0x0100#16 [0xE059#16] [(.primary 5#4, 0x0201#16)] [])
      (fun t => decide (t.iv = 0x0201#16 ∧ t.pc = 0x0102#16)) = true := by decide

/-- spec/95_test_vectors.md 2.11, `(interrupt entry; NOP at pc)`. -/
theorem test_interrupt_entry :
    after ({ start 0x0100#16 [0xE000#16] [(.primary 2#4, 0x8000#16)] []
           with flags := flags 0b10100, ie := true, ip := true, alt := true, iv := 0x0200#16 })
      (fun t => decide (t.phys (.primary 2#4) = 0x7FFE#16 ∧ t.ie = false ∧
      t.ip = false ∧ t.alt = true ∧
      t.pc = 0x0200#16 ∧ t.flags = flags 0b10100 ∧
      t.mem.read 0x7FFF#16 = 0x01#8 ∧ t.mem.read 0x7FFE#16 = 0x00#8)) = true := by decide

/-- spec/95_test_vectors.md 2.11, `(interrupt entry, SP=0001: fault)`. -/
theorem test_interrupt_entry_range :
    after ({ start 0x0100#16 [0xE000#16] [(.primary 2#4, 0x0001#16)] []
           with ie := true, ip := true, iv := 0x0200#16 })
      (fun t => decide (t.phys (.primary 2#4) = 0x0001#16 ∧ t.ie = true ∧
      t.ip = true ∧ t.pc = 0x0100#16 ∧
      t.run = .faulted .memOutOfRange 0x0100#16)) = true := by decide

/-- spec/95_test_vectors.md 2.11, `(undefined) C147`. -/
theorem test_undefined :
    after (start 0x0100#16 [0xC147#16] [(.primary 2#4, 0x8000#16), (.primary 4#4, 0x1234#16)] [])
      (fun t => decide (t.phys (.primary 2#4) = 0x8000#16 ∧ t.pc = 0x0100#16 ∧
      t.run = .faulted .undefinedOpcode 0x0100#16)) = true := by decide

/-- spec/95_test_vectors.md 2.11, `(undefined) F01B 0000`. -/
theorem test_undefined_extended :
    after ({ start 0x0100#16 [0xF01B#16, 0x0000#16] [] []
           with flags := flags 0b01000 })
      (fun t => decide (t.pc = 0x0100#16 ∧ t.flags = flags 0b01000 ∧
      t.run = .faulted .undefinedOpcode 0x0100#16)) = true := by decide

/-- spec/95_test_vectors.md 2.11, `(extended first word at FFFD)`. -/
theorem test_fetch_truncated :
    after (start 0xFFFD#16 [0xF405#16, 0x1234#16] [] [])
      (fun t => decide (t.phys (.primary 4#4) = 0x0000#16 ∧ t.pc = 0xFFFD#16 ∧
      t.run = .faulted .truncatedFetch 0xFFFD#16)) = true := by decide

/-- spec/95_test_vectors.md 2.11, `(fetch at FFFF)`. -/
theorem test_fetch_top :
    after (start 0xFFFF#16 [0xE000#16] [] [])
      (fun t => decide (t.pc = 0xFFFF#16 ∧ t.run = .faulted .truncatedFetch 0xFFFF#16)) = true := by decide

/-! ## The run loop and the record -/

/-- 70_reset_and_hazards.md R354, 10_state.md R39: an `irq` at the boundary of a terminal state sets `IP`, and the run
reports success. -/
theorem test_run_delivers_in_terminal_state :
    let s := runLoop 1 { State.reset with run := .halted, env := { Env.initial with irqs := [true] } }
    s.ip = true ∧ s.run = .halted ∧ s.report = .success := by decide

/-- R351, R354: `NOP` then `HALT` (46_system.md R290, R291) loaded at 0x0100 halts with `pc` at the `HALT`; with a bound of
one step the run is only stopped. -/
theorem test_run_image :
    let run := fun fuel => runImage fuel 0x0100#16 [] Env.initial [0x00#8, 0xE0#8, 0x01#8, 0xE0#8]
    (run 9).map (fun s => (s.report, s.pc)) = some (.success, 0x0102#16) ∧
    (run 1).map State.report = some .stopped := by decide

/-- R354, 60_exceptions.md R313: an undefined word ends the run in failure with the kind and the address. -/
theorem test_run_failure :
    (runImage 9 0x0100#16 [] Env.initial [0xFF#8, 0xFF#8]).map State.report =
      some (.failure .undefinedOpcode 0x0100#16) := by decide

/-- spec/95_test_vectors.md 2.1, rows 54FF and 6450: a field a row does not show is 0 in the record. -/
theorem test_record :
    Instr.record (.addi 4#4 0xFF#8) =
      { mnemonic := "ADDI", format := .i, opcode := 0x5#4, rd := 4#4, imm := 0xFFFF#16 } ∧
    Instr.record (.lw 4#4 5#4) = { mnemonic := "LW", format := .s, opcode := 0x6#4, rd := 4#4, rs := 5#4 } := by decide

/-- 30_encoding.md R116 over the integers (00_scope.md R10): `pc + 2` = 0x10000 at 0xFFFE, so the offset to 0xFFFE itself is
-1, compact; the target 0x0000 is out of the compact range there. -/
theorem test_choose_at_top :
    chooseJump 0xFFFE#16 0xFFFE#16 = some (.j 0xFFF#12) ∧
    chooseBranch .eq 0xFFFE#16 0xFFFE#16 = some (.beq 0xFF#8) ∧
    chooseJump 0xFFFE#16 0x0000#16 = some (.jFar 0xFFFF#16) := by decide

/-- R119: `next` after a far form at 0xFFFC is 0x0000. -/
theorem test_choose_far_at_top : chooseJump 0xFFFC#16 0x2000#16 = some (.jFar 0x1000#16) := by decide

end Sys2Proof.Tests
end

section
/-! PROOFS. What executing one instruction and taking one step can do to the state of 10_state.md, said once, and the
statements of that family settled from it. -/

namespace Sys2Proof.Proofs

open Sys2Proof.Machine Sys2Proof.Spec

/-! ## What an instruction that completes leaves

`Ends` collects, for the state after an instruction or an interrupt entry, everything of the state that is not a result:
the control state it must have, and what it must have kept. -/

/-- The flags outside the mask are as before (10_state.md R36). -/
def KeepsUnwritten (written old new : Flags) : Prop :=
  (written.n = false → new.n = old.n) ∧ (written.z = false → new.z = old.z) ∧
  (written.c = false → new.c = old.c) ∧ (written.v = false → new.v = old.v) ∧
  (written.h = false → new.h = old.h)

theorem KeepsUnwritten.refl (written f : Flags) : KeepsUnwritten written f f :=
  ⟨fun _ => rfl, fun _ => rfl, fun _ => rfl, fun _ => rfl, fun _ => rfl⟩

theorem KeepsUnwritten.all (old new : Flags) : KeepsUnwritten ⟨true, true, true, true, true⟩ old new := by
  simp [KeepsUnwritten]

/-- With an empty mask the flags are the same. -/
theorem KeepsUnwritten.eq {old new : Flags} (h : KeepsUnwritten ⟨false, false, false, false, false⟩ old new) :
    new = old := by
  obtain ⟨hn, hz, hc, hv, hh⟩ := h
  cases new; cases old
  simp_all

/-- The flags outside `written` are kept, `ALT`, `IV`, `IE` and `RUN` are those given, `IP` and the storage of `R[0]` are
kept, and memory stays in canonical form. -/
structure Ends (written : Flags) (alt : Bool) (iv : Word) (ie : Bool) (run : RunState) (s t : State) : Prop where
  flags : KeepsUnwritten written s.flags t.flags
  alt : t.alt = alt
  iv : t.iv = iv
  ie : t.ie = ie
  run : t.run = run
  ip : t.ip = s.ip
  hardwired : t.phys (.primary 0#4) = s.phys (.primary 0#4)
  canonical : s.mem.wf → t.mem.wf

section Ends

variable {written : Flags} {alt ie : Bool} {iv : Word} {run : RunState} {s t : State}

theorem Ends.refl (written : Flags) (s : State) : Ends written s.alt s.iv s.ie s.run s s :=
  ⟨KeepsUnwritten.refl _ _, rfl, rfl, rfl, rfl, rfl, rfl, id⟩

theorem Ends.setX (h : Ends written alt iv ie run s t) (i : Reg) (v : Word) :
    Ends written alt iv ie run s (t.setX i v) := by
  obtain ⟨hf, ha, hv, he, hr, hp, h0, hm⟩ := h
  exact ⟨by simpa using hf, by simpa using ha, by simpa using hv, by simpa using he, by simpa using hr,
    by simpa using hp, by simpa using h0, by simpa using hm⟩

theorem Ends.withFlags (h : Ends written alt iv ie run s t) {f : Flags} (hf : KeepsUnwritten written s.flags f) :
    Ends written alt iv ie run s (t.withFlags f) :=
  { h with flags := hf }

theorem Ends.advance (h : Ends written alt iv ie run s t) (w : Word) :
    Ends written alt iv ie run s (t.advance w) :=
  { h with }

theorem Ends.jumpTo (h : Ends written alt iv ie run s t) (a : Word) : Ends written alt iv ie run s (t.jumpTo a) :=
  { h with }

theorem Ends.emit (h : Ends written alt iv ie run s t) (o : Output) : Ends written alt iv ie run s (t.emit o) :=
  { h with }

theorem Ends.callReadHandler (h : Ends written alt iv ie run s t) (p : PortNo) :
    Ends written alt iv ie run s (t.callReadHandler p) :=
  { h with }

theorem Ends.withMem (h : Ends written alt iv ie run s t) {m : Memory} (hm : s.mem.wf → m.wf) :
    Ends written alt iv ie run s { t with mem := m } :=
  { h with canonical := hm }

/-- The registers a block operation writes do not include `R[0]`, so its frame is an `Ends`. -/
theorem Ends.of_blockFrame {regs : List Reg} (hf : BlockFrame regs s t) (h0 : 0#4 ∉ regs) (hm : s.mem.wf → t.mem.wf) :
    Ends written s.alt s.iv s.ie s.run s t where
  flags := hf.flags ▸ KeepsUnwritten.refl _ _
  alt := hf.alt
  iv := hf.iv
  ie := hf.ie
  run := hf.run
  ip := hf.ip
  hardwired := hf.phys _ fun _ hi e => h0 (physOf_eq_zero _ _ e.symm ▸ hi)
  canonical := hm

end Ends

/-! ## What the shared operations leave -/

section Operations

variable {written : Flags} {s t : State}

/-- A word store is out of range exactly at 0xFFFF (20_memory.md R64). -/
theorem writeWord_eq_none (m : Memory) (a v : Word) : m.writeWord a v = none ↔ a = 0xFFFF#16 := by
  by_cases h : a = 0xFFFF#16
  · simp [h]
  · simp [h, Memory.writeWord_of_ne m v h]

theorem push16_ends {v : Word} (h : push16 v s = some t) : Ends written s.alt s.iv s.ie s.run s t := by
  obtain ⟨m, hm, rfl⟩ := push16_some h
  exact ((Ends.refl written s).withMem fun hw => Memory.wf_writeWord hw hm).setX _ _

theorem pop16_ends {v : Word} (h : pop16 s = some (v, t)) : Ends written s.alt s.iv s.ie s.run s t := by
  obtain ⟨-, rfl⟩ := pop16_some h
  exact (Ends.refl written s).setX _ _

/-- Entering the vector clears `IE` and keeps everything else `Ends` speaks of (60_exceptions.md R320, R322). -/
theorem enterVector_ends {ret : Word} (h : enterVector ret s = some t) : Ends written s.alt s.iv false s.run s t := by
  obtain ⟨u, hu, rfl⟩ := enterVector_some h
  exact { push16_ends hu with ie := rfl }

/-- Returning sets `IE` and keeps everything else `Ends` speaks of (R325). -/
theorem returnFromInterrupt_ends (h : returnFromInterrupt s = some t) : Ends written s.alt s.iv true s.run s t := by
  obtain ⟨v, u, hu, rfl⟩ := returnFromInterrupt_some h
  exact { pop16_ends hu with ie := rfl }

theorem portRead_ends {p : Word} {b : Byte} (h : portRead p s = some (b, t)) :
    Ends written s.alt s.iv s.ie s.run s t := by
  have hp : p.toNat ≤ 255 := by
    by_contra hp
    rw [(portRead_eq_none p s).mpr (Nat.lt_of_not_le hp)] at h
    cases h
  rw [portRead_of_le hp] at h
  split at h <;> cases h
  · exact (Ends.refl written s).callReadHandler _
  · exact Ends.refl written s

theorem portWrite_ends {p : Word} {b : Byte} (h : portWrite p b s = some t) :
    Ends written s.alt s.iv s.ie s.run s t := by
  have hp : p.toNat ≤ 255 := by
    by_contra hp
    rw [(portWrite_eq_none p b s).mpr (Nat.lt_of_not_le hp)] at h
    cases h
  rw [portWrite_of_le hp] at h
  split at h <;> cases h
  · exact (Ends.refl written s).emit _
  · exact Ends.refl written s

theorem copyOnce_ends (dir : Word) (s : State) : Ends written s.alt s.iv s.ie s.run s (copyOnce dir s) := by
  unfold copyOnce
  split
  · exact Ends.refl written s
  · obtain ⟨hm, -, -, -, hf⟩ := copyElement_spec dir s
    exact .of_blockFrame hf (by decide) fun hw => hm ▸ Memory.wf_write _ _ hw

theorem repeatCopy_ends (dir : Word) (n : Nat) (s : State) :
    Ends written s.alt s.iv s.ie s.run s (repeatElement (copyElement dir) n s) := by
  obtain ⟨hm, -, -, -, hf⟩ := repeatElement_copy dir n s
  exact .of_blockFrame hf (by decide) fun hw => hm ▸ wf_copyMemory dir n _ _ hw

theorem repeatFill_ends (n : Nat) (s : State) :
    Ends written s.alt s.iv s.ie s.run s (repeatElement fillElement n s) := by
  obtain ⟨hm, -, -, hf⟩ := repeatElement_fill n s
  exact .of_blockFrame hf (by decide) fun hw => hm ▸ wf_fillMemory _ n _ hw

theorem searchLoop_ends (n : Nat) (s : State) : Ends written s.alt s.iv s.ie s.run s (searchLoop n s).1 := by
  obtain ⟨hm, hf⟩ := searchLoop_frame n s
  exact .of_blockFrame hf (by decide) fun hw => hm ▸ hw

end Operations

/-! ## What an instruction answers -/

/-- An instruction either raises the fault it has a cause for, or has none and completes in a state that meets `Q`. -/
inductive Answers (cause : Option (FaultKind × Word)) (Q : State → Prop) (s : State) (res : Result) : Prop where
  | faults (kind : FaultKind) (info : Word) (hcause : cause = some (kind, info)) (hres : res = raise kind info s)
  | completes (t : State) (hcause : cause = none) (hres : res = .next t) (ht : Q t)

section Answers

variable {written : Flags} {alt ie : Bool} {iv : Word} {run : RunState} {s t : State} {Q : State → Prop}

theorem answers_next (ht : Q t) : Answers none Q s (.next t) := .completes t rfl rfl ht

/-- A memory access that is refused exactly under `bad` raises the range fault exactly there. -/
theorem answers_commitOrMemFault {bad : Prop} [Decidable bad] {a b : Word} {o : Option State}
    (hbad : o = none ↔ bad) (hb : bad → a = b) (hQ : ∀ t, o = some t → Q t) :
    Answers (if bad then some (.memOutOfRange, b) else none) Q s (commitOrMemFault a s o) := by
  cases o with
  | none =>
    have h : bad := hbad.mp rfl
    exact .faults _ _ (if_pos h) (by rw [hb h, commitOrMemFault_none])
  | some t => exact .completes t (if_neg fun h => by cases hbad.mpr h) (commitOrMemFault_some a s t) (hQ t rfl)

theorem answers_commitOrPortFault {bad : Prop} [Decidable bad] {p : Word} {o : Option State}
    (hbad : o = none ↔ bad) (hQ : ∀ t, o = some t → Q t) :
    Answers (if bad then some (.portOutOfRange, p) else none) Q s (commitOrPortFault p s o) := by
  cases o with
  | none => exact .faults _ _ (if_pos (hbad.mp rfl)) (commitOrPortFault_none p s)
  | some t => exact .completes t (if_neg fun h => by cases hbad.mpr h) (commitOrPortFault_some p s t) (hQ t rfl)

/-! One lemma per common end of an instruction: it completes, and `Ends` says in what state. -/

theorem writeResult_answers {rd : Reg} {r w : Word} {f : Flags} (hf : KeepsUnwritten written s.flags f) :
    Answers none (Ends written s.alt s.iv s.ie s.run s) s (writeResult rd r f w s) :=
  answers_next ((((Ends.refl written s).setX rd r).withFlags hf).advance w)

theorem writeFlags_answers {w : Word} {f : Flags} (hf : KeepsUnwritten written s.flags f) :
    Answers none (Ends written s.alt s.iv s.ie s.run s) s (writeFlags f w s) :=
  answers_next (((Ends.refl written s).withFlags hf).advance w)

theorem writeValue_answers {rd : Reg} {r w : Word} :
    Answers none (Ends written s.alt s.iv s.ie s.run s) s (writeValue rd r w s) :=
  answers_next (((Ends.refl written s).setX rd r).advance w)

theorem writeUnlessZero_answers {d r : Word} {rd : Reg} :
    Answers (if d = 0#16 then some (.divideByZero, s.pc) else none) (Ends written s.alt s.iv s.ie s.run s) s
      (writeUnlessZero d rd r s) := by
  unfold writeUnlessZero
  split
  · exact .faults _ _ rfl rfl
  · exact writeValue_answers

theorem jumpTo_answers {a : Word} :
    Answers none (Ends written s.alt s.iv s.ie s.run s) s (.next (s.jumpTo a)) :=
  answers_next ((Ends.refl written s).jumpTo a)

theorem linkAndJump_answers {link a : Word} :
    Answers none (Ends written s.alt s.iv s.ie s.run s) s (.next ((s.setX regRA link).jumpTo a)) :=
  answers_next (((Ends.refl written s).setX regRA link).jumpTo a)

theorem branchOn_answers {c : Cond} {w a : Word} :
    Answers none (Ends written s.alt s.iv s.ie s.run s) s (branchOn c w a s) := by
  unfold branchOn
  split
  · exact jumpTo_answers
  · exact answers_next ((Ends.refl written s).advance w)

theorem loadByte_answers {extend : Byte → Word} {rd : Reg} {ea w : Word} :
    Answers none (Ends written s.alt s.iv s.ie s.run s) s (loadByte extend rd ea w s) :=
  answers_next (((Ends.refl written s).setX rd _).advance w)

theorem storeByte_answers {ea v w : Word} :
    Answers none (Ends written s.alt s.iv s.ie s.run s) s (storeByte ea v w s) :=
  answers_next (((Ends.refl written s).withMem fun hw => Memory.wf_write ea _ hw).advance w)

theorem loadWord_answers {rd : Reg} {ea w : Word} :
    Answers (if ea = 0xFFFF#16 then some (.memOutOfRange, 0xFFFF#16) else none)
      (Ends written s.alt s.iv s.ie s.run s) s (loadWord rd ea w s) := by
  refine answers_commitOrMemFault (by simp [Memory.readWord_eq_none]) id fun t ht => ?_
  obtain ⟨v, -, rfl⟩ := Option.map_eq_some_iff.mp ht
  exact ((Ends.refl written s).setX rd v).advance w

theorem storeWord_answers {ea v w : Word} :
    Answers (if ea = 0xFFFF#16 then some (.memOutOfRange, 0xFFFF#16) else none)
      (Ends written s.alt s.iv s.ie s.run s) s (storeWord ea v w s) := by
  refine answers_commitOrMemFault (by simp [writeWord_eq_none]) id fun t ht => ?_
  obtain ⟨m, hm, rfl⟩ := Option.map_eq_some_iff.mp ht
  exact ((Ends.refl written s).withMem fun hw => Memory.wf_writeWord hw hm).advance w

theorem execPush_answers {rs : Reg} :
    Answers (causeOf (.push rs) s) (Ends written s.alt s.iv s.ie s.run s) s (execPush rs s) := by
  refine answers_commitOrMemFault (by simp [push16_eq_none]) (fun _ => rfl) fun t ht => ?_
  obtain ⟨u, hu, rfl⟩ := Option.map_eq_some_iff.mp ht
  exact (push16_ends hu).advance _

theorem execPop_answers {rd : Reg} :
    Answers (causeOf (.pop rd) s) (Ends written s.alt s.iv s.ie s.run s) s (execPop rd s) := by
  refine answers_commitOrMemFault (by simp [pop16_eq_none]) (fun _ => rfl) fun t ht => ?_
  obtain ⟨⟨v, u⟩, hu, rfl⟩ := Option.map_eq_some_iff.mp ht
  exact ((pop16_ends hu).setX rd v).advance _

theorem execSwi_answers : Answers (causeOf .swi s) (Ends written s.alt s.iv false s.run s) s (execSwi s) :=
  answers_commitOrMemFault (enterVector_eq_none _ s) (fun _ => rfl) fun _ => enterVector_ends

theorem execReti_answers : Answers (causeOf .reti s) (Ends written s.alt s.iv true s.run s) s (execReti s) :=
  answers_commitOrMemFault (returnFromInterrupt_eq_none s) (fun _ => rfl) fun _ => returnFromInterrupt_ends

theorem execInPort_answers {rd rs : Reg} :
    Answers (causeOf (.inPort rd rs) s) (Ends written s.alt s.iv s.ie s.run s) s (execInPort rd rs s) := by
  refine answers_commitOrPortFault (by simp [portRead_eq_none]) fun t ht => ?_
  obtain ⟨⟨b, u⟩, hu, rfl⟩ := Option.map_eq_some_iff.mp ht
  exact ((portRead_ends hu).setX rd _).advance _

theorem execOutPort_answers {rd rs : Reg} :
    Answers (causeOf (.outPort rd rs) s) (Ends written s.alt s.iv s.ie s.run s) s (execOutPort rd rs s) := by
  refine answers_commitOrPortFault (by simp [portWrite_eq_none]) fun t ht => ?_
  obtain ⟨u, hu, rfl⟩ := Option.map_eq_some_iff.mp ht
  exact (portWrite_ends hu).advance _

/-- The end of a copy or fill writes `Z` alone (44_block.md R260). -/
theorem finishBlock_answers (h : ∀ written, Ends written alt iv ie run s t) :
    Answers none (Ends ⟨false, true, false, false, false⟩ alt iv ie run s) s (finishBlock t) := by
  have hf : t.flags = s.flags := (h ⟨false, false, false, false, false⟩).flags.eq
  exact answers_next (((h _).withFlags (by simp [KeepsUnwritten, Flags.withZ, hf])).advance _)

theorem execCpir_answers :
    Answers none (Ends ⟨false, true, true, false, false⟩ s.alt s.iv s.ie s.run s) s (execCpir s) := by
  have hf : (searchLoop (s.x regCount).toNat s).1.flags = s.flags :=
    (searchLoop_ends (written := ⟨false, false, false, false, false⟩) _ s).flags.eq
  exact answers_next (((searchLoop_ends _ s).withFlags (by simp [KeepsUnwritten, Flags.withZC, hf])).advance _)

end Answers

/-! ## The table over all instructions -/

/-- `ALT` after an instruction that raises no fault (10_state.md R25). -/
def altAfter (i : Instr) (s : State) : Bool :=
  match i with
  | .exx => !s.alt
  | _ => s.alt

/-- `RUN` after an instruction that raises no fault (R39). -/
def runAfter (i : Instr) (s : State) : RunState :=
  match i with
  | .halt => .halted
  | _ => s.run

/-- The control state after `i` is the table's, and `i` keeps what `Ends` lists. -/
abbrev EndsAs (i : Instr) (s t : State) : Prop :=
  Ends (flagsWritten i) (altAfter i s) (ivAfter i s) (ieAfter i s) (runAfter i s) s t

theorem logicFlags_keeps (r : Word) (f : Flags) : KeepsUnwritten ⟨true, true, true, true, false⟩ f (logicFlags r f) := by
  simp [KeepsUnwritten, logicFlags]

theorem shiftFlags_keeps (r : Word) (c : Bool) (f : Flags) :
    KeepsUnwritten ⟨true, true, true, true, false⟩ f (shiftFlags r c f) := by
  simp [KeepsUnwritten, shiftFlags]

/-- Every instruction raises the fault it has a cause for, and otherwise completes as the tables of written flags and of
control registers say. -/
theorem exec_answers (i : Instr) (s : State) : Answers (causeOf i s) (EndsAs i s) s (exec i s) := by
  cases i with
  | add | addi | addiExt | adc | sub | sbc | neg => exact writeResult_answers (KeepsUnwritten.all _ _)
  | cmp | cmpi => exact writeFlags_answers (KeepsUnwritten.all _ _)
  | and | or | xor | not | andi | ori | xori => exact writeResult_answers (logicFlags_keeps _ _)
  | tst => exact writeFlags_answers (logicFlags_keeps _ _)
  | sll | srl | sra | rol | ror | rcl | rcr => exact writeResult_answers (shiftFlags_keeps _ _ _)
  | mov | li | swap | sext | mul | mulh | mulhu | getf | getiv => exact writeValue_answers
  | div | divu | rem | remu => exact writeUnlessZero_answers
  | lw | lwExt => exact loadWord_answers
  | lb | lbu | lbExt | lbuExt => exact loadByte_answers
  | sw | swExt => exact storeWord_answers
  | sb | sbExt => exact storeByte_answers
  | push => exact execPush_answers
  | pop => exact execPop_answers
  | beq | bne | blt | bge | bltu | bgeu | bmi | bpl | bvs | bvc | bcs | bcc | bgt | ble | bhi | bls
  | beqFar | bneFar | bltFar | bgeFar | bltuFar | bgeuFar | bmiFar | bplFar
  | bvsFar | bvcFar | bcsFar | bccFar | bgtFar | bleFar | bhiFar | blsFar => exact branchOn_answers
  | j | jFar | jr | jmp => exact jumpTo_answers
  | jalr | call => exact linkAndJump_answers
  | ldi | ldd => exact finishBlock_answers fun _ => copyOnce_ends _ s
  | ldir | lddr => exact finishBlock_answers fun _ => repeatCopy_ends _ _ s
  | fill => exact finishBlock_answers fun _ => repeatFill_ends _ s
  | cpir => exact execCpir_answers
  | inPort => exact execInPort_answers
  | outPort => exact execOutPort_answers
  | swi => exact execSwi_answers
  | reti => exact execReti_answers
  | nop => exact answers_next ((Ends.refl _ s).advance _)
  | setf => exact answers_next (((Ends.refl _ s).withFlags (KeepsUnwritten.all _ _)).advance _)
  | halt => exact answers_next { Ends.refl _ s with run := rfl }
  | ei | di => exact answers_next { Ends.refl _ s with ie := rfl }
  | setiv => exact answers_next { Ends.refl _ s with iv := rfl }
  | exx => exact answers_next { Ends.refl _ s with alt := rfl }

/-! ## What one instruction and one step can do -/

section Steps

variable {i : Instr} {s t : State}

/-- An executed instruction with no cause to fault completes; one with a cause leaves only the fault's report. -/
theorem exec_next_cases (h : exec i s = .next t) :
    (causeOf i s = none ∧ EndsAs i s t) ∨
    (∃ kind info, causeOf i s = some (kind, info) ∧ t = faultedState kind info s) := by
  cases exec_answers i s with
  | faults kind info hcause hres =>
    rw [hres] at h
    cases h
    exact .inr ⟨kind, info, hcause, rfl⟩
  | completes u hcause hres hu =>
    rw [hres] at h
    cases h
    exact .inl ⟨hcause, hu⟩

/-- A step that answers a next state is an interrupt entry, an executed instruction or a decode fault, taken from the
state with the boundary's events delivered (60_exceptions.md R319). -/
theorem step_next_cases (h : step s = .next t) :
    s.run = .running ∧
    ((s.deliver.acceptsInterrupt = true ∧ interruptEntry s.deliver = .next t) ∨
      (s.deliver.acceptsInterrupt = false ∧
        ((∃ i, exec i s.deliver = .next t) ∨ ∃ kind info, t = faultedState kind info s.deliver))) := by
  unfold step stepAtBoundary at h
  split at h
  case h_1 => cases h
  case h_2 => cases h
  case h_3 hrun =>
    refine ⟨by simpa using hrun, ?_⟩
    split at h
    case isTrue ha => exact .inl ⟨ha, h⟩
    case isFalse ha =>
      refine .inr ⟨by simpa using ha, ?_⟩
      split at h
      · next i _ => exact .inl ⟨i, h⟩
      · cases h; exact .inr ⟨_, _, rfl⟩
      · cases h; exact .inr ⟨_, _, rfl⟩

/-- An interrupt entry clears `IE` and `IP` and keeps the rest of what `Ends` lists, or it faults (R320). -/
theorem interruptEntry_next_cases (h : interruptEntry s = .next t) :
    (∃ u, t = { u with ip := false } ∧ Ends ⟨false, false, false, false, false⟩ s.alt s.iv false s.run s u) ∨
    t = faultedState .memOutOfRange 0xFFFF#16 s := by
  rcases interruptEntry_cases s with ⟨u, hu, he⟩ | ⟨-, he⟩ <;> rw [he] at h <;> cases h
  · exact .inl ⟨u, rfl, enterVector_ends hu⟩
  · exact .inr rfl

theorem acceptsInterrupt_of_readyToAccept (h : ReadyToAccept s) : s.deliver.acceptsInterrupt = true := by
  obtain ⟨-, hip, hie⟩ := h
  simp [State.acceptsInterrupt, hip, hie]

theorem not_acceptsInterrupt_of_readyToFetch (h : ReadyToFetch s) : s.deliver.acceptsInterrupt = false := by
  obtain ⟨-, hn⟩ := h
  simpa [State.acceptsInterrupt] using hn

/-- Where an interrupt is accepted, the step is its entry. -/
theorem interruptEntry_of_readyToAccept (hr : ReadyToAccept s) (h : step s = .next t) :
    interruptEntry s.deliver = .next t := by
  obtain ⟨-, ⟨-, he⟩ | ⟨ha, -⟩⟩ := step_next_cases h
  · exact he
  · rw [acceptsInterrupt_of_readyToAccept hr] at ha
    cases ha

/-- Where none is accepted, the step executes an instruction or raises a decode fault. -/
theorem exec_or_fault_of_readyToFetch (hr : ReadyToFetch s) (h : step s = .next t) :
    (∃ i, exec i s.deliver = .next t) ∨ ∃ kind info, t = faultedState kind info s.deliver := by
  obtain ⟨-, ⟨ha, -⟩ | ⟨-, he⟩⟩ := step_next_cases h
  · rw [not_acceptsInterrupt_of_readyToFetch hr] at ha
    cases ha
  · exact he

/-! What the delivery of events and a fault's report leave: one lemma per field used below. -/

@[simp] theorem deliver_alt (s : State) : s.deliver.alt = s.alt := by rw [State.deliver_eq]
@[simp] theorem deliver_iv (s : State) : s.deliver.iv = s.iv := by rw [State.deliver_eq]
@[simp] theorem deliver_flags (s : State) : s.deliver.flags = s.flags := by rw [State.deliver_eq]
@[simp] theorem deliver_pc (s : State) : s.deliver.pc = s.pc := by rw [State.deliver_eq]
@[simp] theorem deliver_mem (s : State) : s.deliver.mem = s.mem := by rw [State.deliver_eq]
@[simp] theorem deliver_phys (s : State) (p : PhysReg) : s.deliver.phys p = s.phys p := by rw [State.deliver_eq]; rfl

@[simp] theorem faultedState_alt (k : FaultKind) (w : Word) (s : State) : (faultedState k w s).alt = s.alt := rfl
@[simp] theorem faultedState_iv (k : FaultKind) (w : Word) (s : State) : (faultedState k w s).iv = s.iv := rfl
@[simp] theorem faultedState_ie (k : FaultKind) (w : Word) (s : State) : (faultedState k w s).ie = s.ie := rfl
@[simp] theorem faultedState_ip (k : FaultKind) (w : Word) (s : State) : (faultedState k w s).ip = s.ip := rfl
@[simp] theorem faultedState_flags (k : FaultKind) (w : Word) (s : State) : (faultedState k w s).flags = s.flags := rfl
@[simp] theorem faultedState_run (k : FaultKind) (w : Word) (s : State) :
    (faultedState k w s).run = .faulted k s.pc := rfl

/-- What a step that accepts an interrupt leaves, read against the state before the delivery: the entry, or the fault of
its push, which keeps `IP` and `IE` set (R320). -/
theorem readyToAccept_step_cases (hr : ReadyToAccept s) (h : step s = .next t) :
    t.alt = s.alt ∧ t.iv = s.iv ∧ t.flags = s.flags ∧
    ((t.run = .running ∧ t.ip = false ∧ t.ie = false) ∨ (t.run ≠ .running ∧ t.ip = true ∧ t.ie = true)) := by
  have ⟨hrun, hip, hie⟩ := hr
  rcases interruptEntry_next_cases (interruptEntry_of_readyToAccept hr h) with ⟨u, rfl, hends⟩ | rfl
  · have hflags : u.flags = s.deliver.flags := hends.flags.eq
    have hurun : u.run = .running := by simp [hends.run, hrun]
    exact ⟨by simp [hends.alt], by simp [hends.iv], by simp [hflags], .inl ⟨hurun, rfl, hends.ie⟩⟩
  · exact ⟨by simp, by simp, by simp, .inr ⟨by simp, by simpa using hip, by simpa using hie⟩⟩

end Steps

/-! ## The state invariant (10_state.md R21, 20_memory.md R60) -/

section Invariant

variable {i : Instr} {s t : State}

/-- Delivering a boundary's events touches nothing the invariant speaks of. -/
theorem inv_deliver (h : s.Inv) : s.deliver.Inv := by
  simpa [State.Inv] using h

/-- A fault keeps memory and registers, and records the `pc` it leaves in place (60_exceptions.md R312). -/
theorem inv_faultedState (kind : FaultKind) (info : Word) (h : s.Inv) : (faultedState kind info s).Inv := by
  obtain ⟨hmem, hzero, -⟩ := h
  refine ⟨hmem, hzero, fun k a hr => ?_⟩
  cases hr
  rfl

/-- What keeps `R[0]` and canonical memory and is not faulted meets the invariant. -/
theorem inv_of_ends {written : Flags} {alt ie : Bool} {iv : Word} {run : RunState} (h : s.Inv)
    (he : Ends written alt iv ie run s t) (hrun : ∀ kind addr, run ≠ .faulted kind addr) : t.Inv := by
  obtain ⟨hmem, hzero, -⟩ := h
  exact ⟨he.canonical hmem, he.hardwired.trans hzero, fun k a hr => absurd (he.run.symm.trans hr) (hrun k a)⟩

theorem runAfter_ne_faulted (i : Instr) (hs : s.run = .running) (kind : FaultKind) (addr : Word) :
    runAfter i s ≠ .faulted kind addr := by
  unfold runAfter
  split <;> simp [hs]

theorem inv_exec (h : s.Inv) (hs : s.run = .running) (he : exec i s = .next t) : t.Inv := by
  rcases exec_next_cases he with ⟨-, hends⟩ | ⟨kind, info, -, rfl⟩
  · exact inv_of_ends h hends (runAfter_ne_faulted i hs)
  · exact inv_faultedState kind info h

theorem inv_interruptEntry (h : s.Inv) (hs : s.run = .running) (he : interruptEntry s = .next t) : t.Inv := by
  rcases interruptEntry_next_cases he with ⟨u, rfl, hends⟩ | rfl
  · have hu : u.Inv := inv_of_ends h hends (by simp [hs])
    exact hu
  · exact inv_faultedState _ _ h

end Invariant

/-- Settles O14: the events of the boundary keep the invariant, and so does each of the three things a step can be. -/
theorem stepKeepsInvariant : Obligations.StepKeepsInvariant := by
  intro s t hinv hstep
  have hd : s.deliver.Inv := inv_deliver hinv
  obtain ⟨hs, ⟨-, he⟩ | ⟨-, ⟨i, he⟩ | ⟨kind, info, rfl⟩⟩⟩ := step_next_cases hstep
  · exact inv_interruptEntry hd (by simpa using hs) he
  · exact inv_exec hd (by simpa using hs) he
  · exact inv_faultedState kind info hd

/-- Reset holds zero in every register and is Running, so the invariant asks only for canonical memory (R42). -/
theorem inv_resetAt (base : Word) {mem : Memory} (h : mem.wf) : (State.resetAt base mem).Inv :=
  ⟨h, rfl, fun _ _ hr => by cases hr⟩

/-- Settles O15, from the reset at a base over canonical memory. -/
theorem resetMeetsInvariant : Obligations.ResetMeetsInvariant :=
  ⟨inv_resetAt _ Memory.wf_nil, fun base _ h => inv_resetAt base h⟩

/-! ## The control registers, `ALT` and the flags -/

/-- An instruction leaves `IP` as it is, whether it completes or faults (10_state.md R38). -/
theorem exec_ip {i : Instr} {s t : State} (h : exec i s = .next t) : t.ip = s.ip := by
  rcases exec_next_cases h with ⟨-, hends⟩ | ⟨_, _, -, rfl⟩
  · exact hends.ip
  · rfl

/-- Settles O9: no instruction writes `IP`, and the entry clears it unless its push faults. -/
theorem pendingLatchClearedOnlyByAcceptance : Obligations.PendingLatchClearedOnlyByAcceptance := by
  refine ⟨fun s => ⟨rfl, rfl⟩, fun s b rest hirqs => ?_, fun i s t => exec_ip, fun s t hstep => ⟨?_, ?_, ?_⟩⟩
  · simp [State.deliver_eq, hirqs]
  · intro hr
    rcases exec_or_fault_of_readyToFetch hr hstep with ⟨i, he⟩ | ⟨_, _, rfl⟩
    · exact exec_ip he
    · rfl
  · intro hr hrun
    obtain ⟨-, -, -, ⟨-, hip, -⟩ | ⟨hn, -, -⟩⟩ := readyToAccept_step_cases hr hstep
    · exact hip
    · exact absurd hrun hn
  · intro hr hn
    obtain ⟨-, -, -, ⟨hrun, -, -⟩ | ⟨-, hip, -⟩⟩ := readyToAccept_step_cases hr hstep
    · exact absurd hrun hn
    · exact hip

theorem altAfter_of_ne_exx {i : Instr} (s : State) (h : i ≠ .exx) : altAfter i s = s.alt := by
  unfold altAfter
  split
  · exact absurd rfl h
  · rfl

theorem exec_exx (s : State) : exec .exx s = .next { s with alt := !s.alt, pc := s.pc + 2#16 } := rfl

theorem exec_alt {i : Instr} {s t : State} (h : exec i s = .next t) : t.alt = if i = .exx then !s.alt else s.alt := by
  by_cases hi : i = .exx
  · subst hi
    rw [exec_exx] at h
    cases h
    rfl
  · rw [if_neg hi]
    rcases exec_next_cases h with ⟨-, hends⟩ | ⟨_, _, -, rfl⟩
    · exact hends.alt.trans (altAfter_of_ne_exx s hi)
    · rfl

/-- Equal selectors and equal physical registers make every index read the same (R23). -/
theorem x_eq_of_phys_eq {s t : State} (halt : t.alt = s.alt) (hphys : ∀ p, t.phys p = s.phys p) (i : Reg) :
    t.x i = s.x i := by
  by_cases hi : i = 0#4
  · subst hi; rfl
  · rw [State.x_of_ne_zero t hi, State.x_of_ne_zero s hi, halt, hphys]

/-- Settles O22: `EXX` alone has another entry than `ALT` in the table, and it moves no physical register. -/
theorem onlyExxSwitchesBank : Obligations.OnlyExxSwitchesBank := by
  refine ⟨fun i s t => exec_alt, fun s t hr hstep => ?_, fun s t u ht hu => ?_, fun _ _ _ => rfl⟩
  · obtain ⟨halt, -⟩ := readyToAccept_step_cases hr hstep
    exact halt
  · rw [exec_exx] at ht hu
    cases ht
    cases hu
    exact ⟨fun _ => rfl, x_eq_of_phys_eq (by simp) fun _ => rfl⟩

/-- Settles O23: a completing instruction ends with the table's `IV` and `IE`, a fault keeps both. -/
theorem controlRegisterWriters : Obligations.ControlRegisterWriters := by
  refine ⟨fun i s t he => ?_, fun s t hr hstep => ?_⟩
  · rcases exec_next_cases he with ⟨hnone, hends⟩ | ⟨kind, info, hsome, rfl⟩
    · exact ⟨fun _ => ⟨hends.iv, hends.ie⟩, fun hc => absurd hnone hc⟩
    · exact ⟨fun hc => by simp [hsome] at hc, fun _ => ⟨rfl, rfl⟩⟩
  · obtain ⟨-, hiv, -, ⟨hrun, -, hie⟩ | ⟨hn, -, hie⟩⟩ := readyToAccept_step_cases hr hstep
    · exact ⟨hiv, fun _ => hie, fun hn => absurd hrun hn⟩
    · exact ⟨hiv, fun hrun => absurd hrun hn, fun _ => hie⟩

/-- Settles O24: the flags outside the mask are kept by the table's `Ends`, and by a fault. -/
theorem flagsChangeOnlyWhereListed : Obligations.FlagsChangeOnlyWhereListed := by
  refine ⟨fun i s t he => ?_, fun s t hr hstep => ?_⟩
  · rcases exec_next_cases he with ⟨-, hends⟩ | ⟨_, _, -, rfl⟩
    · exact hends.flags
    · exact KeepsUnwritten.refl _ _
  · obtain ⟨-, -, hflags, -⟩ := readyToAccept_step_cases hr hstep
    exact hflags

/-! ## Half carry (10_state.md R36, 46_system.md R296)

Two runs from states that differ in `H` alone. Every operation of the model but `GETF` commutes with replacing `H`, or
overwrites it. -/

section HalfCarry

variable {s : State} {h : Bool}

@[simp] theorem withH_alt (s : State) (h : Bool) : (withH s h).alt = s.alt := rfl
@[simp] theorem withH_mem (s : State) (h : Bool) : (withH s h).mem = s.mem := rfl
@[simp] theorem withH_env (s : State) (h : Bool) : (withH s h).env = s.env := rfl
@[simp] theorem withH_x (s : State) (h : Bool) (i : Reg) : (withH s h).x i = s.x i := rfl

theorem withH_setX (s : State) (h : Bool) (i : Reg) (v : Word) : (withH s h).setX i v = withH (s.setX i v) h := by
  unfold State.setX State.setPhys
  rw [withH_alt]
  split
  · rfl
  · split <;> rfl

/-- The two runs answer next states that differ in `H` at most, and not at all where the instruction writes `H`. -/
def SameButH (writesH : Bool) (h : Bool) (res res' : Result) : Prop :=
  ∃ t, res = .next t ∧ res' = .next (if writesH then t else withH t h)

theorem sameButH_next {t t' : State} (ht : t' = withH t h) : SameButH false h (.next t) (.next t') :=
  ⟨t, rfl, by simp [ht]⟩

theorem sameButH_raise (kind : FaultKind) (info : Word) :
    SameButH false h (raise kind info s) (raise kind info (withH s h)) :=
  ⟨_, rfl, rfl⟩

/-- A commit of accesses that do not see `H` does not see `H`. -/
theorem commitOrMemFault_sameButH {a : Word} {o o' : Option State} (ho : o' = o.map (withH · h)) :
    SameButH false h (commitOrMemFault a s o) (commitOrMemFault a (withH s h) o') := by
  subst ho
  cases o with
  | none => exact sameButH_raise _ _
  | some t => exact sameButH_next rfl

theorem commitOrPortFault_sameButH {p : Word} {o o' : Option State} (ho : o' = o.map (withH · h)) :
    SameButH false h (commitOrPortFault p s o) (commitOrPortFault p (withH s h) o') := by
  subst ho
  cases o with
  | none => exact sameButH_raise _ _
  | some t => exact sameButH_next rfl

/-! The common ends of the instructions. -/

/-- All five flags written: the old `H` is gone. -/
theorem writeResult_sameButH {rd : Reg} {r w : Word} {f : Flags} :
    SameButH true h (writeResult rd r f w s) (writeResult rd r f w (withH s h)) :=
  ⟨_, rfl, by simp only [writeResult, withH_setX, if_true]; rfl⟩

theorem writeFlags_sameButH {w : Word} {f : Flags} :
    SameButH true h (writeFlags f w s) (writeFlags f w (withH s h)) :=
  ⟨_, rfl, rfl⟩

/-- The flags but `H` written: each run keeps its own `H`. -/
theorem writeResult_keepH_sameButH {rd : Reg} {r w : Word} {f f' : Flags} (hf : f' = { f with h := h }) :
    SameButH false h (writeResult rd r f w s) (writeResult rd r f' w (withH s h)) :=
  sameButH_next (by rw [hf, withH_setX]; rfl)

theorem writeFlags_keepH_sameButH {w : Word} {f f' : Flags} (hf : f' = { f with h := h }) :
    SameButH false h (writeFlags f w s) (writeFlags f' w (withH s h)) :=
  sameButH_next (by rw [hf]; rfl)

theorem writeValue_sameButH {rd : Reg} {r w : Word} :
    SameButH false h (writeValue rd r w s) (writeValue rd r w (withH s h)) :=
  sameButH_next (by rw [withH_setX]; rfl)

theorem writeUnlessZero_sameButH {d r : Word} {rd : Reg} :
    SameButH false h (writeUnlessZero d rd r s) (writeUnlessZero d rd r (withH s h)) := by
  unfold writeUnlessZero
  split
  · exact sameButH_raise _ _
  · exact writeValue_sameButH

/-- No branch condition reads `H` (42_control.md R202). -/
theorem condHolds_withH (c : Cond) (s : State) (h : Bool) : condHolds c (withH s h).flags = condHolds c s.flags := by
  cases c <;> rfl

theorem branchOn_sameButH {c : Cond} {w a : Word} :
    SameButH false h (branchOn c w a s) (branchOn c w a (withH s h)) := by
  unfold branchOn
  rw [condHolds_withH]
  split
  · exact sameButH_next rfl
  · exact sameButH_next rfl

theorem linkAndJump_sameButH {link a : Word} :
    SameButH false h (.next ((s.setX regRA link).jumpTo a)) (.next (((withH s h).setX regRA link).jumpTo a)) :=
  sameButH_next (by rw [withH_setX]; rfl)

theorem loadByte_sameButH {extend : Byte → Word} {rd : Reg} {ea w : Word} :
    SameButH false h (loadByte extend rd ea w s) (loadByte extend rd ea w (withH s h)) :=
  writeValue_sameButH

theorem loadWord_sameButH {rd : Reg} {ea w : Word} :
    SameButH false h (loadWord rd ea w s) (loadWord rd ea w (withH s h)) := by
  refine commitOrMemFault_sameButH ?_
  rw [withH_mem]
  cases s.mem.readWord ea with
  | none => rfl
  | some v => simp only [Option.map_some, withH_setX]; rfl

theorem storeWord_sameButH {ea v w : Word} :
    SameButH false h (storeWord ea v w s) (storeWord ea v w (withH s h)) := by
  refine commitOrMemFault_sameButH ?_
  rw [withH_mem]
  cases s.mem.writeWord ea v <;> rfl

/-! The stack, interrupts and ports. -/

theorem push16_withH (v : Word) (s : State) (h : Bool) : push16 v (withH s h) = (push16 v s).map (withH · h) := by
  unfold push16
  rw [withH_mem, withH_x]
  cases s.mem.writeWord (s.x regSP - 2#16) v with
  | none => rfl
  | some m => exact congrArg some (withH_setX { s with mem := m } h _ _)

theorem pop16_withH (s : State) (h : Bool) :
    pop16 (withH s h) = (pop16 s).map fun p => (p.1, withH p.2 h) := by
  unfold pop16
  rw [withH_mem, withH_x]
  cases s.mem.readWord (s.x regSP) with
  | none => rfl
  | some v => exact congrArg (fun t => some (v, t)) (withH_setX s h _ _)

theorem enterVector_withH (ret : Word) (s : State) (h : Bool) :
    enterVector ret (withH s h) = (enterVector ret s).map (withH · h) := by
  unfold enterVector
  rw [push16_withH]
  cases push16 ret s <;> rfl

theorem returnFromInterrupt_withH (s : State) (h : Bool) :
    returnFromInterrupt (withH s h) = (returnFromInterrupt s).map (withH · h) := by
  unfold returnFromInterrupt
  rw [pop16_withH]
  cases pop16 s <;> rfl

theorem portRead_withH (p : Word) (s : State) (h : Bool) :
    portRead p (withH s h) = (portRead p s).map fun q => (q.1, withH q.2 h) := by
  unfold portRead
  rw [withH_env]
  split
  · rfl
  · split <;> rfl

theorem portWrite_withH (p : Word) (v : Byte) (s : State) (h : Bool) :
    portWrite p v (withH s h) = (portWrite p v s).map (withH · h) := by
  unfold portWrite
  rw [withH_env]
  split
  · rfl
  · split <;> rfl

theorem execPush_sameButH {rs : Reg} : SameButH false h (execPush rs s) (execPush rs (withH s h)) := by
  refine commitOrMemFault_sameButH ?_
  rw [withH_x, push16_withH]
  cases push16 (s.x rs) s <;> rfl

theorem execPop_sameButH {rd : Reg} : SameButH false h (execPop rd s) (execPop rd (withH s h)) := by
  refine commitOrMemFault_sameButH ?_
  rw [pop16_withH]
  cases pop16 s with
  | none => rfl
  | some p => simp only [Option.map_some, withH_setX]; rfl

theorem execInPort_sameButH {rd rs : Reg} : SameButH false h (execInPort rd rs s) (execInPort rd rs (withH s h)) := by
  refine commitOrPortFault_sameButH ?_
  rw [withH_x, portRead_withH]
  cases portRead (s.x rs) s with
  | none => rfl
  | some p => simp only [Option.map_some, withH_setX]; rfl

theorem execOutPort_sameButH {rd rs : Reg} :
    SameButH false h (execOutPort rd rs s) (execOutPort rd rs (withH s h)) := by
  refine commitOrPortFault_sameButH ?_
  rw [withH_x, withH_x, portWrite_withH]
  cases portWrite (s.x rd) (lowByte (s.x rs)) s <;> rfl

/-! Block operations. -/

theorem copyElement_withH (dir : Word) (s : State) (h : Bool) :
    copyElement dir (withH s h) = withH (copyElement dir s) h := by
  simp only [copyElement, ← withH_setX]
  rfl

theorem fillElement_withH (s : State) (h : Bool) : fillElement (withH s h) = withH (fillElement s) h := by
  simp only [fillElement, ← withH_setX]
  rfl

theorem searchAdvance_withH (s : State) (h : Bool) : searchAdvance (withH s h) = withH (searchAdvance s) h := by
  simp only [searchAdvance, ← withH_setX]
  rfl

theorem copyOnce_withH (dir : Word) (s : State) (h : Bool) : copyOnce dir (withH s h) = withH (copyOnce dir s) h := by
  unfold copyOnce
  rw [withH_x]
  split
  · rfl
  · exact copyElement_withH dir s h

/-- An element that does not see `H`, repeated, does not see `H`. -/
theorem repeatElement_withH {element : State → State} (he : ∀ s h, element (withH s h) = withH (element s) h) (n : Nat) :
    ∀ (s : State) (h : Bool), repeatElement element n (withH s h) = withH (repeatElement element n s) h := by
  induction n with
  | zero => exact fun _ _ => rfl
  | succ n ih => intro s h; rw [repeatElement, he, ih]; rfl

theorem searchLoop_withH (n : Nat) : ∀ (s : State) (h : Bool),
    searchLoop n (withH s h) = (withH (searchLoop n s).1 h, (searchLoop n s).2) := by
  induction n with
  | zero => exact fun _ _ => rfl
  | succ n ih =>
    intro s h
    unfold searchLoop
    rw [withH_mem, withH_x, withH_x, searchAdvance_withH]
    split
    · rfl
    · exact ih (searchAdvance s) h

theorem finishBlock_sameButH {t t' : State} (ht : t' = withH t h) :
    SameButH false h (finishBlock t) (finishBlock t') :=
  sameButH_next (by rw [ht]; rfl)

theorem execCpir_sameButH : SameButH false h (execCpir s) (execCpir (withH s h)) := by
  unfold execCpir
  rw [withH_x, searchLoop_withH]
  exact sameButH_next rfl

/-- The table over all instructions: run from two states that differ in `H`, each but `GETF` ends in states that differ in
`H` at most, and not at all where it writes `H`. -/
theorem exec_sameButH (i : Instr) (s : State) (h : Bool) (hi : ∀ rd, i ≠ .getf rd) :
    SameButH (flagsWritten i).h h (exec i s) (exec i (withH s h)) := by
  cases i with
  | getf rd => exact absurd rfl (hi rd)
  | add | addi | addiExt | adc | sub | sbc | neg => exact writeResult_sameButH
  | cmp | cmpi | setf => exact writeFlags_sameButH
  | and | or | xor | not | andi | ori | xori | sll | srl | sra | rol | ror | rcl | rcr =>
    exact writeResult_keepH_sameButH rfl
  | tst => exact writeFlags_keepH_sameButH rfl
  | mov | li | swap | sext | mul | mulh | mulhu | getiv => exact writeValue_sameButH
  | div | divu | rem | remu => exact writeUnlessZero_sameButH
  | lw | lwExt => exact loadWord_sameButH
  | lb | lbu | lbExt | lbuExt => exact loadByte_sameButH
  | sw | swExt => exact storeWord_sameButH
  | push => exact execPush_sameButH
  | pop => exact execPop_sameButH
  | beq | bne | blt | bge | bltu | bgeu | bmi | bpl | bvs | bvc | bcs | bcc | bgt | ble | bhi | bls
  | beqFar | bneFar | bltFar | bgeFar | bltuFar | bgeuFar | bmiFar | bplFar
  | bvsFar | bvcFar | bcsFar | bccFar | bgtFar | bleFar | bhiFar | blsFar => exact branchOn_sameButH
  | jalr | call => exact linkAndJump_sameButH
  | ldi | ldd => exact finishBlock_sameButH (copyOnce_withH _ s h)
  | ldir | lddr => exact finishBlock_sameButH (repeatElement_withH (copyElement_withH _) _ s h)
  | fill => exact finishBlock_sameButH (repeatElement_withH fillElement_withH _ s h)
  | cpir => exact execCpir_sameButH
  | inPort => exact execInPort_sameButH
  | outPort => exact execOutPort_sameButH
  | swi => exact commitOrMemFault_sameButH (enterVector_withH _ s h)
  | reti => exact commitOrMemFault_sameButH (returnFromInterrupt_withH s h)
  | sb | sbExt | j | jFar | jr | jmp | nop | halt | ei | di | setiv | exx => exact sameButH_next rfl

end HalfCarry

/-- Settles O25, from the table of the two runs. -/
theorem onlyGetfSeesHalfCarry : Obligations.OnlyGetfSeesHalfCarry := by
  intro i s h hi
  obtain ⟨t, ht, ht'⟩ := exec_sameButH i s h hi
  exact ⟨t, ht, fun hw => by simpa [hw] using ht', fun hw => by simpa [hw] using ht'⟩

/-! ## The register file (10_state.md R23, R24) -/

theorem primary_getElem? (s : State) (k : Reg) : s.r[k.toNat]? = some (s.phys (.primary k)) :=
  Vector.getElem?_eq_getElem k.isLt

theorem shadow_getElem? (s : State) (k : BitVec 3) : s.sh[k.toNat]? = some (s.phys (.shadow k)) :=
  Vector.getElem?_eq_getElem k.isLt

theorem vector_set_eq_setIfInBounds {n : Nat} (xs : Vector Word n) {k : Nat} (v : Word) (hk : k < n) :
    xs.set k v hk = xs.setIfInBounds k v := by
  ext j hj
  rw [Vector.getElem_set, Vector.getElem_setIfInBounds]

theorem setPhys_primary (s : State) (k : Reg) (v : Word) :
    s.setPhys (.primary k) v = { s with r := s.r.setIfInBounds k.toNat v } := by
  rw [← vector_set_eq_setIfInBounds _ _ k.isLt]
  rfl

theorem setPhys_shadow (s : State) (k : BitVec 3) (v : Word) :
    s.setPhys (.shadow k) v = { s with sh := s.sh.setIfInBounds k.toNat v } := by
  rw [← vector_set_eq_setIfInBounds _ _ k.isLt]
  rfl

/-- Under `ALT` the indices 4 to 11 name the shadow register four below (R20, R23). -/
theorem physOf_shadow : ∀ i : Reg, 4 ≤ i.toNat → i.toNat ≤ 11 →
    physOf true i = .shadow (shadowIndex i) ∧ (shadowIndex i).toNat = i.toNat - 4 := by
  decide

/-- Every other index, and every index with `ALT` clear, names the primary register of its number. -/
theorem physOf_primary : ∀ (alt : Bool) (i : Reg), ¬ (alt = true ∧ 4 ≤ i.toNat ∧ i.toNat ≤ 11) →
    physOf alt i = .primary i := by
  decide

/-- Settles O19: `physOf` picks the array and the place, and a physical register is one entry of its array. -/
theorem registerReadAndWrite : Obligations.RegisterReadAndWrite := by
  intro s i v
  refine ⟨?_, ?_, ?_, ?_, ?_, primary_getElem? s, shadow_getElem? s⟩
  · rintro rfl
    exact ⟨State.x_zero s, State.setX_zero s v⟩
  · intro halt hlo hhi
    have hi : i ≠ 0#4 := by rintro rfl; simp at hlo
    obtain ⟨hphys, hindex⟩ := physOf_shadow i hlo hhi
    rw [← halt] at hphys
    rw [State.x_of_ne_zero s hi, State.setX_of_ne_zero s v hi, hphys, ← hindex]
    exact ⟨shadow_getElem? s _, setPhys_shadow s _ v⟩
  · intro hi hbank
    rw [State.x_of_ne_zero s hi, State.setX_of_ne_zero s v hi, physOf_primary s.alt i hbank]
    exact ⟨primary_getElem? s i, setPhys_primary s i v⟩
  · unfold written
    split
    next hi => subst hi; exact State.x_zero _
    next hi => exact State.x_setX_same s v hi
  · exact fun j hj => State.x_setX_other s v hj

/-! ## The flag rules (10_state.md R32 to R35) -/

/-- The result of `AddFlags` is the sum modulo 2^16. -/
theorem addFlags_toNat (a b : Word) (cin : Bool) :
    (addFlags a b cin).1.toNat = (a.toNat + b.toNat + cin.toNat) % 65536 := by
  simp [addFlags]

/-- `SubFlags` adds the complement; it differs from `AddFlags` in the formula of `V` alone. -/
theorem subFlags_eq_addFlags (a b : Word) (cin : Bool) :
    subFlags a b cin = ((addFlags a (~~~b) cin).1,
      { (addFlags a (~~~b) cin).2 with v := ((a ^^^ b) &&& (a ^^^ (addFlags a (~~~b) cin).1)).msb }) := rfl

/-- The formula of `V` for `a - b` is that for `a + ~b`. -/
theorem subFlags_v (a b : Word) (cin : Bool) : (subFlags a b cin).2.v = (addFlags a (~~~b) cin).2.v := by
  simp only [subFlags, addFlags, BitVec.msb_and, BitVec.msb_xor, BitVec.msb_not]
  cases a.msb <;> cases b.msb <;> rfl

theorem msb_eq_bit15 (a : Word) : a.msb = a.getLsbD 15 := BitVec.msb_eq_getLsbD_last a

theorem toInt_range (a : Word) : -32768 ≤ a.toInt ∧ a.toInt < 32768 :=
  ⟨a.le_toInt, a.toInt_lt⟩

/-- Read as signed, the result is the signed sum brought into the 16-bit range. -/
theorem addFlags_toInt (a b : Word) (cin : Bool) :
    (addFlags a b cin).1.toInt = (a.toInt + b.toInt + cin.toNat).bmod 65536 := by
  have hsum : (addFlags a b cin).1 = BitVec.ofNat 16 (a.toNat + b.toNat + cin.toNat) := rfl
  rw [hsum, BitVec.toInt_ofNat', a.toInt_eq_toNat_bmod, b.toInt_eq_toNat_bmod]
  push_cast
  rw [add_assoc (Int.bmod _ _), Int.bmod_add_bmod, add_left_comm, Int.bmod_add_bmod]
  congr 1
  omega

/-- `V` of a sum: the operands have one sign and the result has the other. -/
theorem addFlags_v_iff_signs (a b : Word) (cin : Bool) :
    (addFlags a b cin).2.v = true ↔
      (a.toInt < 0 ↔ b.toInt < 0) ∧ ¬ ((addFlags a b cin).1.toInt < 0 ↔ a.toInt < 0) := by
  have hv : (addFlags a b cin).2.v = (!(a.msb ^^ b.msb) && (a.msb ^^ (addFlags a b cin).1.msb)) := by
    simp [addFlags]
  simp only [hv, BitVec.msb_eq_toInt]
  by_cases ha : a.toInt < 0 <;> by_cases hb : b.toInt < 0 <;> simp [ha, hb]

/-- `V` of a sum holds exactly when the signed sum leaves the 16-bit range (R32). -/
theorem addFlags_v_iff (a b : Word) (cin : Bool) :
    (addFlags a b cin).2.v = true ↔
      a.toInt + b.toInt + cin.toNat < -32768 ∨ 32767 < a.toInt + b.toInt + cin.toNat := by
  have hcin : cin.toNat ≤ 1 := Bool.toNat_le cin
  have ha := toInt_range a
  have hb := toInt_range b
  rw [addFlags_v_iff_signs, addFlags_toInt, Int.bmod_def]
  split <;> omega

theorem addFlags_c_iff (a b : Word) (cin : Bool) :
    (addFlags a b cin).2.c = true ↔ 0xFFFF < a.toNat + b.toNat + cin.toNat := by
  simp [addFlags]

theorem addFlags_z_iff (a b : Word) (cin : Bool) :
    (addFlags a b cin).2.z = true ↔ (addFlags a b cin).1 = 0x0000#16 := by
  simp [addFlags]

theorem addFlags_h_iff (a b : Word) (cin : Bool) :
    (addFlags a b cin).2.h = true ↔ 0xF < a.toNat % 16 + b.toNat % 16 + cin.toNat := by
  simp [addFlags, BitVec.extractLsb'_toNat]

theorem addFlags_n (a b : Word) (cin : Bool) : (addFlags a b cin).2.n = (addFlags a b cin).1.getLsbD 15 :=
  msb_eq_bit15 (addFlags a b cin).1

/-- Settles O31, field by field. -/
theorem addFlagsMeaning : Obligations.AddFlagsMeaning := fun a b cin =>
  ⟨addFlags_toNat a b cin, addFlags_n a b cin, addFlags_z_iff a b cin, addFlags_c_iff a b cin,
    msb_eq_bit15 (~~~(a ^^^ b) &&& (a ^^^ (addFlags a b cin).1)), addFlags_v_iff a b cin, addFlags_h_iff a b cin⟩

theorem subFlags_toNat (a b : Word) (cin : Bool) :
    (subFlags a b cin).1.toNat = (a.toNat + (~~~b).toNat + cin.toNat) % 65536 :=
  addFlags_toNat a (~~~b) cin

/-- The difference, with one more taken off where the carry in is clear (R33). -/
theorem subFlags_result (a b : Word) (cin : Bool) :
    (subFlags a b cin).1 = a - b - BitVec.ofNat 16 (1 - cin.toNat) := by
  apply BitVec.eq_of_toNat_eq
  rw [subFlags_toNat, BitVec.toNat_not]
  have hb := b.isLt
  cases cin <;> simp only [Bool.toNat_false, Bool.toNat_true] <;> bv_omega

/-- The complement is the largest word less `b`, so read as signed it is `-b - 1`. -/
theorem toInt_complement (b : Word) : (~~~b).toInt = -b.toInt - 1 := by
  have hb := b.isLt
  rw [BitVec.toInt_eq_toNat_cond, BitVec.toInt_eq_toNat_cond, BitVec.toNat_not]
  split <;> split <;> omega

/-- `V` of a difference holds exactly when the signed difference leaves the 16-bit range. -/
theorem subFlags_v_iff (a b : Word) (cin : Bool) :
    (subFlags a b cin).2.v = true ↔ a.toInt - b.toInt - (1 - (cin.toNat : Int)) < -32768 ∨
      32767 < a.toInt - b.toInt - (1 - (cin.toNat : Int)) := by
  rw [subFlags_v, addFlags_v_iff, toInt_complement]
  omega

/-- With carry in 1, `C` says that no borrow occurs. -/
theorem subFlags_c_iff_le (a b : Word) : (subFlags a b true).2.c = true ↔ b.toNat ≤ a.toNat := by
  have hb := b.isLt
  rw [subFlags_eq_addFlags, addFlags_c_iff, BitVec.toNat_not, Bool.toNat_true]
  omega

theorem subFlags_true_result (a b : Word) : (subFlags a b true).1 = a - b := by
  simpa using subFlags_result a b true

theorem subFlags_z_iff_eq (a b : Word) : (subFlags a b true).2.z = true ↔ a = b := by
  have hz : (subFlags a b true).2.z = true ↔ (subFlags a b true).1 = 0#16 := addFlags_z_iff a (~~~b) true
  rw [hz, subFlags_true_result]
  exact sub_eq_zero

/-- `N` is the sign of the exact difference unless `V` is set, when it is the opposite. -/
theorem subFlags_n_ne_v_iff_lt (a b : Word) :
    (subFlags a b true).2.n ≠ (subFlags a b true).2.v ↔ a.toInt < b.toInt := by
  have hn : (subFlags a b true).2.n = true ↔ (a.toInt - b.toInt).bmod 65536 < 0 := by
    rw [show (subFlags a b true).2.n = (subFlags a b true).1.msb from rfl, subFlags_true_result, BitVec.msb_eq_toInt,
      BitVec.toInt_sub, decide_eq_true_eq]
  have hv := subFlags_v_iff a b true
  have ha := toInt_range a
  have hb := toInt_range b
  rw [Int.bmod_def] at hn
  rw [Bool.toNat_true] at hv
  rw [Ne, Bool.eq_iff_iff, hn, hv]
  split <;> omega

/-- Settles O32: all but `V` and the readings of the operands is `AddFlags` of the complement. -/
theorem subFlagsMeaning : Obligations.SubFlagsMeaning := by
  intro a b cin
  refine ⟨subFlags_toNat a b cin, subFlags_result a b cin, addFlags_n a (~~~b) cin, addFlags_z_iff a (~~~b) cin,
    addFlags_c_iff a (~~~b) cin, msb_eq_bit15 ((a ^^^ b) &&& (a ^^^ (subFlags a b cin).1)), subFlags_v_iff a b cin,
    addFlags_h_iff a (~~~b) cin, ?_⟩
  rintro rfl
  exact ⟨subFlags_c_iff_le a b, subFlags_z_iff_eq a b, subFlags_n_ne_v_iff_lt a b⟩

/-- Settles O33, field by field: bit 15 is the most significant bit and the test for zero decides the equality. -/
theorem logicAndShiftFlags : Obligations.LogicAndShiftFlags := by
  intro r cout f
  have hn : r.msb = r.getLsbD 15 := msb_eq_bit15 r
  have hz : (r == 0x0000#16) = decide (r = 0x0000#16) := beq_eq_decide r 0x0000#16
  exact ⟨by rw [logicFlags, hn, hz], by rw [shiftFlags, hn, hz]⟩

/-! ## Terminal states and reset (10_state.md R39, R42) -/

theorem step_halted {s : State} (h : s.run = .halted) : step s = .fault .stepWhenHalted := by
  have hd : s.deliver.run = .halted := by rw [State.deliver_run, h]
  simp only [step, stepAtBoundary, hd]

theorem step_faulted {s : State} {kind : FaultKind} {addr : Word} (h : s.run = .faulted kind addr) :
    step s = .fault (.stepWhenFaulted kind addr) := by
  have hd : s.deliver.run = .faulted kind addr := by rw [State.deliver_run, h]
  simp only [step, stepAtBoundary, hd]

/-- Settles O10, from the two terminal branches of the step. -/
theorem terminalStatesHaveNoStep : Obligations.TerminalStatesHaveNoStep :=
  ⟨fun _ => step_halted, fun _ _ _ => step_faulted, fun _ => rfl, fun _ _ _ => rfl, fun _ _ _ => rfl, fun _ => rfl⟩

theorem phys_resetAt (base : Word) (mem : Memory) (p : PhysReg) : (State.resetAt base mem).phys p = 0x0000#16 := by
  cases p <;> exact Vector.getElem_replicate _

theorem x_resetAt (base : Word) (mem : Memory) (i : Reg) : (State.resetAt base mem).x i = 0x0000#16 := by
  by_cases hi : i = 0#4
  · subst hi; exact State.x_zero _
  · rw [State.x_of_ne_zero _ hi, phys_resetAt]

/-- Settles O16: a reset keeps the port side of the old state and nothing else of it. -/
theorem resetValues : Obligations.ResetValues := by
  refine ⟨fun s base mem => ?_, rfl, fun _ => rfl⟩
  exact ⟨rfl, phys_resetAt base mem, x_resetAt base mem, rfl, rfl, rfl, rfl, rfl, rfl, rfl, rfl⟩

end Sys2Proof.Proofs
end

section
/-! PROOFS. Memory as the accesses of 20_memory.md see it, the fetch of an instruction from its encoded bytes, and which
instructions reach memory and the port space. -/

namespace Sys2Proof.Proofs

open Sys2Proof.Machine Sys2Proof.Spec

/-! ## The canonical list of memory (log 5) -/

/-- An address without an entry reads as `MEM_INIT`. -/
theorem lookup_of_not_listed {m : Memory} {a : Nat} (h : ∀ c ∈ m, c.1 ≠ a) : m.lookup a = Config.memInit := by
  induction m with
  | nil => rfl
  | cons d m ih =>
    have hd : d.1 ≠ a := h d List.mem_cons_self
    have hm : ∀ c ∈ m, c.1 ≠ a := fun c hc => h c (List.mem_cons_of_mem d hc)
    simpa [Memory.lookup, hd] using ih hm

/-- A canonical list holds exactly the entries that its reads give and that differ from `MEM_INIT`. -/
theorem mem_iff_lookup {m : Memory} (hm : m.wf) (c : Host.Cell) :
    c ∈ m ↔ c.2 ≠ Config.memInit ∧ m.lookup c.1 = c.2 := by
  obtain ⟨hsorted, hcells⟩ := hm
  induction m with
  | nil => simp [Memory.lookup, eq_comm]
  | cons d m ih =>
    rw [List.pairwise_cons] at hsorted
    obtain ⟨hd, hsorted⟩ := hsorted
    have ih' := ih hsorted fun e he => hcells e (List.mem_cons_of_mem d he)
    by_cases hkey : d.1 = c.1
    · have hnot : c ∉ m := fun hc => absurd (hd c hc) (by simp [hkey])
      have hinit : d.2 ≠ Config.memInit := (hcells d List.mem_cons_self).2
      have hlookup : Memory.lookup (d :: m) c.1 = d.2 := by simp [Memory.lookup, hkey]
      rw [hlookup, List.mem_cons, or_iff_left hnot]
      constructor
      · rintro rfl
        exact ⟨hinit, rfl⟩
      · exact fun ⟨_, hval⟩ => Prod.ext hkey.symm hval.symm
    · have hne : c ≠ d := fun e => hkey (e ▸ rfl)
      have hlookup : Memory.lookup (d :: m) c.1 = Memory.lookup m c.1 := by simp [Memory.lookup, hkey]
      rw [hlookup, List.mem_cons, or_iff_right hne, ih']

/-- Canonical memories that agree at the 65536 addresses agree at every number: above 0xFFFF nothing is listed. -/
theorem lookup_eq_of_read_eq {m m' : Memory} (hm : m.wf) (hm' : m'.wf) (h : ∀ a, m.read a = m'.read a) (a : Nat) :
    m.lookup a = m'.lookup a := by
  by_cases ha : a < 0x10000
  · simpa [Memory.read, BitVec.toNat_ofNat, Nat.mod_eq_of_lt ha] using h (BitVec.ofNat 16 a)
  · have habove : ∀ {l : Memory}, l.wf → ∀ c ∈ l, c.1 ≠ a := fun hl c hc e => ha (e ▸ (hl.2 c hc).1)
    rw [lookup_of_not_listed (habove hm), lookup_of_not_listed (habove hm')]

/-- Settles O18: the reads fix the entries, and a strictly rising list is fixed by its entries. -/
theorem canonicalMemoryDeterminedByReads : Obligations.CanonicalMemoryDeterminedByReads := by
  intro m m' hm hm' hread
  have hentries : ∀ c, c ∈ m ↔ c ∈ m' := fun c => by
    rw [mem_iff_lookup hm, mem_iff_lookup hm', lookup_eq_of_read_eq hm hm' hread]
  have hanti : Std.Antisymm fun p q : Host.Cell => p.1 < q.1 := ⟨fun _ _ h h' => absurd h (Nat.lt_asymm h')⟩
  have hirrefl : Std.Irrefl fun p q : Host.Cell => p.1 < q.1 := ⟨fun _ => Nat.lt_irrefl _⟩
  exact hm.1.eq_of_mem_iff hm'.1 hentries

/-! ## Byte and word accesses (20_memory.md R62 to R65) -/

/-- A word written is read back at its two addresses and as a word, and no other byte changes (R62, R64). -/
theorem writeWord_reads {m m' : Memory} {a v : Word} (h : m.writeWord a v = some m') :
    m'.read a = v.extractLsb' 0 8 ∧ m'.read (a + 1#16) = v.extractLsb' 8 8 ∧ m'.readWord a = some v ∧
    ∀ c, c ≠ a → c ≠ a + 1#16 → m'.read c = m.read c := by
  have hread := Memory.read_writeWord m m' a v h
  have hlo : m'.read a = v.extractLsb' 0 8 := by
    rw [hread, if_neg (add_one_ne a).symm, if_pos rfl]
  have hhi : m'.read (a + 1#16) = v.extractLsb' 8 8 := by
    rw [hread, if_pos rfl]
  have ha : a ≠ 0xFFFF#16 := fun e => by simp [(writeWord_eq_none m a v).mpr e] at h
  refine ⟨hlo, hhi, ?_, fun c hc hc1 => ?_⟩
  · rw [Memory.readWord_of_ne m' ha, hlo, hhi, wordOfBytes_split]
  · rw [hread, if_neg hc1, if_neg hc]

/-- Settles O20, access by access. -/
theorem memoryReadAndWrite : Obligations.MemoryReadAndWrite := by
  intro m a
  refine ⟨fun b => ⟨?_, ?_, ?_⟩, Memory.readWord_eq_none m a, Memory.readWord_of_ne m, fun v => ⟨?_, ?_⟩⟩
  · exact Memory.read_write_same m a b
  · exact fun _ hc => Memory.read_write_other m b hc
  · exact Memory.wf_write a b
  · exact writeWord_eq_none m a v
  · intro m' h
    obtain ⟨hlo, hhi, hword, hother⟩ := writeWord_reads h
    exact ⟨hlo, hhi, hword, hother, fun hwf => Memory.wf_writeWord hwf h⟩

/-! ## Fetch (20_memory.md R66, R79) -/

/-- The word at an address is the one whose bytes stand there, low byte first (R62). -/
theorem wordAt_of_bytes {m : Memory} {a w : Word} (hlo : m.read a = w.extractLsb' 0 8)
    (hhi : m.read (a + 1#16) = w.extractLsb' 8 8) : m.wordAt a = w := by
  rw [Memory.wordAt, hlo, hhi, wordOfBytes_split]

theorem fetch_of_compact {m : Memory} {pc w : Word} (hpc : pc.toNat + 2 ≤ 0x10000) (hw : m.wordAt pc = w)
    (hx : isExtended w = false) : fetch m pc = .compact w := by
  have hin : ¬ pc.toNat + 1 > 0xFFFF := by omega
  simp [fetch, hin, hw, hx]

theorem fetch_of_extended {m : Memory} {pc w0 w1 : Word} (hpc : pc.toNat + 4 ≤ 0x10000) (hw0 : m.wordAt pc = w0)
    (hw1 : m.wordAt (pc + 2#16) = w1) (hx : isExtended w0 = true) : fetch m pc = .extended w0 w1 := by
  have hin : ¬ pc.toNat + 1 > 0xFFFF := by omega
  have hin2 : ¬ pc.toNat + 3 > 0xFFFF := by omega
  simp [fetch, hin, hin2, hw0, hw1, hx]

/-- A second word that would start beyond 0xFFFC is not fetched (R66, D27). -/
theorem fetch_truncated_of_extended {m : Memory} {pc w0 : Word} (hpc : 0xFFFD ≤ pc.toNat) (hw0 : m.wordAt pc = w0)
    (hx : isExtended w0 = true) : fetch m pc = .truncated := by
  have hin2 : pc.toNat + 3 > 0xFFFF := by omega
  by_cases hin : pc.toNat + 1 > 0xFFFF
  · simp [fetch, hin]
  · simp [fetch, hin, hin2, hw0, hx]

/-- The delivery of a boundary's events is not seen by the fetch. -/
theorem fetchDecode_deliver (s : State) : s.deliver.fetchDecode = s.fetchDecode := by
  simp [State.fetchDecode]

/-- A step that fetches an instruction executes it (60_exceptions.md R319). -/
theorem step_of_fetchDecode {s : State} {i : Instr} (hr : ReadyToFetch s) (hi : s.fetchDecode = .ok i) :
    step s = exec i s.deliver := by
  have ⟨hrun, _⟩ := hr
  have haccept : s.deliver.acceptsInterrupt = false := not_acceptsInterrupt_of_readyToFetch hr
  simp [step, stepAtBoundary, hrun, haccept, fetchDecode_deliver, hi]

/-- What `SW` leaves where its address is in range: the two bytes written and the advance (43_loadstore.md R243). -/
theorem exec_sw_of_ne {s : State} {rd rs : Reg} (h : s.x rs ≠ 0xFFFF#16) :
    ∃ m, s.mem.writeWord (s.x rs) (s.x rd) = some m ∧
      exec (.sw rd rs) s = .next ({ s with mem := m }.advance 2#16) := by
  refine ⟨_, Memory.writeWord_of_ne s.mem (s.x rd) h, ?_⟩
  simp [exec, execSw, storeWord, State.eaIndirect, Memory.writeWord_of_ne s.mem (s.x rd) h]

/-- Settles O21: the word just stored is the word fetched, and it announces no second one. -/
theorem storedCodeIsFetched : Obligations.StoredCodeIsFetched := by
  intro s rd rs j haddr htop ⟨_, hx, hdec⟩
  obtain ⟨m, hm, hexec⟩ := exec_sw_of_ne (rd := rd) htop
  refine ⟨_, hexec, fun hr => step_of_fetchDecode hr ?_⟩
  obtain ⟨hlo, hhi, -, -⟩ := writeWord_reads hm
  have hpc : (s.pc + 2#16).toNat + 2 ≤ 0x10000 := by
    rw [haddr] at htop
    bv_omega
  have hword : m.wordAt (s.pc + 2#16) = s.x rd := haddr ▸ wordAt_of_bytes hlo hhi
  have hfetch : fetch m (s.pc + 2#16) = .compact (s.x rd) := fetch_of_compact hpc hword hx
  rw [State.fetchDecode, State.advance_mem, State.advance_pc, hfetch, hdec]

end Sys2Proof.Proofs
end

section
/-! PROOFS. The decoder reads every well-formed instruction back from its words (30_encoding.md R98 to R110). -/

namespace Sys2Proof.Proofs

open Sys2Proof.Machine Sys2Proof.Spec

/-! ## The decoder by primary opcode -/

section Opcodes

variable (a b c : Nibble) (e : BitVec 8) (w1 : Word)

theorem decode_load : decode (.compact (ofNibbles 0x6#4 a b c)) = decodeLoad a b c := by
  simp [decode, decodeCompact]

theorem decode_store : decode (.compact (ofNibbles 0x7#4 a b c)) = decodeStore a b c := by
  simp [decode, decodeCompact]

theorem decode_branch : decode (.compact (ofByte 0x8#4 a e)) = .ok (compactBranch (condOf a) e) := by
  simp [decode, decodeCompact]

/-- Every word of opcode 0x9 outside the slice of `JR` and `JALR` is a `J` (R102). -/
theorem decode_jump {off : BitVec 12} (h : inRegisterJumpSlice off = false) :
    decode (.compact (0x9#4 ++ off)) = .ok (.j off) := by
  simp [decode, decodeCompact, decodeJump, h]

/-- The words of `JR` and `JALR` lie in the slice (R102). -/
theorem inRegisterJumpSlice_jr :
    ∀ rs : Reg, inRegisterJumpSlice (low12 (ofNibbles 0x9#4 0x8#4 0x0#4 rs)) = true := by decide

theorem inRegisterJumpSlice_jalr :
    ∀ rs : Reg, inRegisterJumpSlice (low12 (ofNibbles 0x9#4 0x8#4 0x1#4 rs)) = true := by decide

theorem decode_jr (rs : Reg) : decode (.compact (ofNibbles 0x9#4 0x8#4 0x0#4 rs)) = .ok (.jr rs) := by
  simp [decode, decodeCompact, decodeJump, inRegisterJumpSlice_jr]

theorem decode_jalr (rs : Reg) : decode (.compact (ofNibbles 0x9#4 0x8#4 0x1#4 rs)) = .ok (.jalr rs) := by
  simp [decode, decodeCompact, decodeJump, inRegisterJumpSlice_jalr]

theorem decode_shift : decode (.compact (ofNibbles 0xA#4 a b c)) = decodeShift a b c := by
  simp [decode, decodeCompact]

theorem decode_mulDiv : decode (.compact (ofNibbles 0xB#4 a b c)) = decodeMulDiv a b c := by
  simp [decode, decodeCompact]

theorem decode_misc : decode (.compact (ofNibbles 0xC#4 a b c)) = decodeMisc a b c := by
  simp [decode, decodeCompact]

theorem decode_port : decode (.compact (ofNibbles 0xD#4 a b c)) = decodePort a b c := by
  simp [decode, decodeCompact]

theorem decode_system : decode (.compact (ofNibbles 0xE#4 a b c)) = decodeSystem a b c := by
  simp [decode, decodeCompact]

theorem decode_extended : decode (.extended (ofNibbles 0xF#4 a b c) w1) = decodeExtended a b c w1 := by
  simp [decode]

end Opcodes

/-! ## Both directions -/

section Encodings

variable {i : Instr}

/-- A first word that decodes on its own announces no second one (R90, log 12). -/
theorem not_isExtended_of_decode {w : Word} (h : decode (.compact w) = .ok i) : isExtended w = false := by
  cases hx : isExtended w with
  | false => rfl
  | true =>
    have hnib : nib3 w = 0xF#4 := by simpa [isExtended] using hx
    simp [decode, decodeCompact, hnib] at h

/-- The words of `i` are one compact word or two, and the decoder reads `i` back from them. -/
def ReadsBack (i : Instr) : Prop := (∃ w, Compact w i) ∨ ∃ w0 w1, Extended w0 w1 i

theorem readsBack_compact {w : Word} (henc : encode i = [w]) (hdec : decode (.compact w) = .ok i) : ReadsBack i :=
  .inl ⟨w, henc, not_isExtended_of_decode hdec, hdec⟩

theorem readsBack_extended {a b c : Nibble} {w1 : Word} (henc : encode i = [ofNibbles 0xF#4 a b c, w1])
    (hdec : decodeExtended a b c w1 = .ok i) : ReadsBack i := by
  have hx : isExtended (ofNibbles 0xF#4 a b c) = true := by simp [isExtended]
  exact .inr ⟨_, w1, henc, hx, (decode_extended a b c w1).trans hdec,
    fun _ _ hpc hw0 => fetch_truncated_of_extended hpc hw0 hx⟩

/-- The table over all instructions: the encoder's words of a well-formed instruction decode to it (R109, R110). -/
theorem readsBack_of_wellFormed (i : Instr) (h : i.wellFormed = true) : ReadsBack i := by
  cases i with
  | add | sub | and | or | xor | addi => exact readsBack_compact rfl (by simp [decode, decodeCompact])
  | lw | lb | lbu => exact readsBack_compact rfl (decode_load _ _ _)
  | sw | sb => exact readsBack_compact rfl (decode_store _ _ _)
  | beq | bne | blt | bge | bltu | bgeu | bmi | bpl | bvs | bvc | bcs | bcc | bgt | ble | bhi | bls =>
    exact readsBack_compact rfl (decode_branch _ _)
  | jr rs => exact readsBack_compact rfl (decode_jr rs)
  | jalr rs => exact readsBack_compact rfl (decode_jalr rs)
  | j off => exact readsBack_compact rfl (decode_jump (by simpa [Instr.wellFormed] using h))
  | sll | srl | sra | rol | ror | rcl | rcr | swap | sext => exact readsBack_compact rfl (decode_shift _ _ _)
  | mul | mulh | mulhu | div | divu | rem | remu => exact readsBack_compact rfl (decode_mulDiv _ _ _)
  | mov | not | neg | adc | sbc | cmp | tst | push | pop | exx | ldi | ldd | ldir | lddr | fill | cpir =>
    exact readsBack_compact rfl (decode_misc _ _ _)
  | inPort | outPort => exact readsBack_compact rfl (decode_port _ _ _)
  | nop | halt | ei | di | swi | reti | getf | setf | getiv | setiv =>
    exact readsBack_compact rfl (decode_system _ _ _)
  | addiExt | andi | ori | xori | cmpi | li | lwExt | lbExt | lbuExt | swExt | sbExt
  | beqFar | bneFar | bltFar | bgeFar | bltuFar | bgeuFar | bmiFar | bplFar
  | bvsFar | bvcFar | bcsFar | bccFar | bgtFar | bleFar | bhiFar | blsFar
  | jFar | jmp | call => exact readsBack_extended rfl rfl

end Encodings

/-! ## From bytes in memory to the decoded instruction -/

section Bytes

variable {s : State} {i : Instr}

theorem encodeBytes_of_one {w : Word} (h : encode i = [w]) : encodeBytes i = wordBytes w := by
  simp [encodeBytes, h]

theorem encodeBytes_of_two {w0 w1 : Word} (h : encode i = [w0, w1]) : encodeBytes i = wordBytes w0 ++ wordBytes w1 := by
  simp [encodeBytes, h]

theorem fetchDecode_of_compact {w : Word} (hw : Compact w i) (h : HoldsAtPc s i) : s.fetchDecode = .ok i := by
  obtain ⟨henc, hx, hdec⟩ := hw
  obtain ⟨hpc, hbytes⟩ := h
  rw [encodeBytes_of_one henc] at hpc hbytes
  have hword : s.mem.wordAt s.pc = w := wordAt_of_bytes (by simpa using hbytes 0 _ rfl) (hbytes 1 _ rfl)
  rw [State.fetchDecode, fetch_of_compact hpc hword hx, hdec]

theorem fetchDecode_of_extended {w0 w1 : Word} (hw : Extended w0 w1 i) (h : HoldsAtPc s i) :
    s.fetchDecode = .ok i := by
  obtain ⟨henc, hx, hdec, -⟩ := hw
  obtain ⟨hpc, hbytes⟩ := h
  rw [encodeBytes_of_two henc] at hpc hbytes
  have hword0 : s.mem.wordAt s.pc = w0 := wordAt_of_bytes (by simpa using hbytes 0 _ rfl) (hbytes 1 _ rfl)
  have hword1 : s.mem.wordAt (s.pc + 2#16) = w1 :=
    wordAt_of_bytes (hbytes 2 _ rfl) (by simpa [BitVec.add_assoc] using hbytes 3 _ rfl)
  rw [State.fetchDecode, fetch_of_extended hpc hword0 hword1 hx, hdec]

/-- The encoded bytes of a well-formed instruction, standing at `pc`, are fetched and decoded as that instruction. -/
theorem fetchDecode_of_holdsAtPc (hwf : i.wellFormed = true) (h : HoldsAtPc s i) : s.fetchDecode = .ok i := by
  rcases readsBack_of_wellFormed i hwf with ⟨w, hw⟩ | ⟨w0, w1, hw⟩
  · exact fetchDecode_of_compact hw h
  · exact fetchDecode_of_extended hw h

end Bytes

/-- Settles O3: the bytes at `pc` decode to the instruction, and the step executes what it decodes. -/
theorem encodedInstructionRuns : Obligations.EncodedInstructionRuns :=
  fun _ _ hwf hbytes hready => step_of_fetchDecode hready (fetchDecode_of_holdsAtPc hwf hbytes)

end Sys2Proof.Proofs
end

section
/-! PROOFS. Which instructions reach memory and which the port space (20_memory.md R61). -/

namespace Sys2Proof.Proofs

open Sys2Proof.Machine Sys2Proof.Spec

/-! ## What an instruction may reach -/

/-- The environment's side is as before but for what one call may change: the port map and the events to come are kept,
and at most one output is appended (00_scope.md R7). -/
structure AtMostOneCall (e e' : Env) : Prop where
  readPorts : e'.readPorts = e.readPorts
  writePorts : e'.writePorts = e.writePorts
  irqs : e'.irqs = e.irqs
  outputs : ∃ calls, e'.outputs = e.outputs ++ calls ∧ calls.length ≤ 1

theorem AtMostOneCall.refl (e : Env) : AtMostOneCall e e := ⟨rfl, rfl, rfl, [], by simp, by simp⟩

theorem AtMostOneCall.emit (s : State) (o : Output) : AtMostOneCall s.env (s.emit o).env :=
  ⟨rfl, rfl, rfl, [o], rfl, le_rfl⟩

theorem AtMostOneCall.callReadHandler (s : State) (p : PortNo) : AtMostOneCall s.env (s.callReadHandler p).env :=
  ⟨rfl, rfl, rfl, [.portRead p s.env.answer], rfl, le_rfl⟩

/-- From `s` to `t` memory is kept unless `stores`, the environment's side unless `ports`, and there is at most one
call. -/
structure Reaches (stores ports : Bool) (s t : State) : Prop where
  mem : stores = false → t.mem = s.mem
  env : ports = false → t.env = s.env
  calls : AtMostOneCall s.env t.env

section Spaces

variable {stores ports : Bool} {s t u : State}

/-- Neither space is reached. -/
theorem Reaches.neither (hm : t.mem = s.mem) (he : t.env = s.env) : Reaches stores ports s t :=
  ⟨fun _ => hm, fun _ => he, he ▸ AtMostOneCall.refl _⟩

/-- Memory alone is reached. -/
theorem Reaches.memory (he : t.env = s.env) : Reaches true ports s t :=
  ⟨nofun, fun _ => he, he ▸ AtMostOneCall.refl _⟩

/-- The port space alone is reached. -/
theorem Reaches.port (hm : t.mem = s.mem) (hc : AtMostOneCall s.env t.env) : Reaches stores true s t :=
  ⟨fun _ => hm, nofun, hc⟩

/-- Later updates of other fields reach neither space. -/
theorem Reaches.of_same (h : Reaches stores ports s t) (hm : u.mem = t.mem) (he : u.env = t.env) :
    Reaches stores ports s u :=
  ⟨fun hs => hm.trans (h.mem hs), fun hp => he.trans (h.env hp), he ▸ h.calls⟩

/-! ## What the shared operations reach -/

theorem push16_env {v : Word} (h : push16 v s = some t) : t.env = s.env := by
  obtain ⟨m, -, rfl⟩ := push16_some h
  simp

theorem enterVector_env {ret : Word} (h : enterVector ret s = some t) : t.env = s.env := by
  obtain ⟨u, hu, rfl⟩ := enterVector_some h
  have he : u.env = s.env := push16_env hu
  exact he

theorem pop16_mem_env {v : Word} (h : pop16 s = some (v, t)) : t.mem = s.mem ∧ t.env = s.env := by
  obtain ⟨-, rfl⟩ := pop16_some h
  simp

theorem returnFromInterrupt_mem_env (h : returnFromInterrupt s = some t) : t.mem = s.mem ∧ t.env = s.env := by
  obtain ⟨v, u, hu, rfl⟩ := returnFromInterrupt_some h
  have hme : u.mem = s.mem ∧ u.env = s.env := pop16_mem_env hu
  exact hme

/-- A port read answers from the state as it is (unmapped) or after one call of the handler (R69). -/
theorem portRead_some {p : Word} {b : Byte} (h : portRead p s = some (b, t)) :
    t = s ∨ t = s.callReadHandler (p.setWidth 8) := by
  unfold portRead at h
  split at h
  · cases h
  · split at h <;> cases h
    · exact .inr rfl
    · exact .inl rfl

/-- A port write leaves the state as it is (unmapped) or with one call reported (R70). -/
theorem portWrite_some {p : Word} {b : Byte} (h : portWrite p b s = some t) :
    t = s ∨ t = s.emit (.portWrite (p.setWidth 8) b) := by
  unfold portWrite at h
  split at h
  · cases h
  · split at h <;> cases h
    · exact .inr rfl
    · exact .inl rfl

theorem portRead_reaches {p : Word} {b : Byte} (h : portRead p s = some (b, t)) : Reaches stores true s t := by
  rcases portRead_some h with rfl | rfl
  · exact .neither rfl rfl
  · exact .port rfl (.callReadHandler s _)

theorem portWrite_reaches {p : Word} {b : Byte} (h : portWrite p b s = some t) : Reaches stores true s t := by
  rcases portWrite_some h with rfl | rfl
  · exact .neither rfl rfl
  · exact .port rfl (.emit s _)

theorem copyOnce_env (dir : Word) (s : State) : (copyOnce dir s).env = s.env := by
  unfold copyOnce
  split
  · rfl
  · obtain ⟨-, -, -, -, hf⟩ := copyElement_spec dir s
    exact hf.env

theorem repeatCopy_env (dir : Word) (n : Nat) (s : State) : (repeatElement (copyElement dir) n s).env = s.env := by
  obtain ⟨-, -, -, -, hf⟩ := repeatElement_copy dir n s
  exact hf.env

theorem repeatFill_env (n : Nat) (s : State) : (repeatElement fillElement n s).env = s.env := by
  obtain ⟨-, -, -, hf⟩ := repeatElement_fill n s
  exact hf.env

/-! ## What the common ends of the instructions reach -/

theorem writeResult_reaches {rd : Reg} {r w : Word} {f : Flags} :
    Answers none (Reaches stores ports s) s (writeResult rd r f w s) :=
  answers_next (.neither (by simp) (by simp))

theorem writeValue_reaches {rd : Reg} {r w : Word} :
    Answers none (Reaches stores ports s) s (writeValue rd r w s) :=
  answers_next (.neither (by simp) (by simp))

theorem writeUnlessZero_reaches {d r : Word} {rd : Reg} :
    Answers (if d = 0#16 then some (.divideByZero, s.pc) else none) (Reaches stores ports s) s
      (writeUnlessZero d rd r s) := by
  unfold writeUnlessZero
  split
  · exact .faults _ _ rfl rfl
  · exact writeValue_reaches

theorem branchOn_reaches {c : Cond} {w a : Word} :
    Answers none (Reaches stores ports s) s (branchOn c w a s) := by
  unfold branchOn
  split
  · exact answers_next (.neither rfl rfl)
  · exact answers_next (.neither rfl rfl)

theorem linkAndJump_reaches {link a : Word} :
    Answers none (Reaches stores ports s) s (.next ((s.setX regRA link).jumpTo a)) :=
  answers_next (.neither (by simp) (by simp))

theorem loadWord_reaches {rd : Reg} {ea w : Word} :
    Answers (if ea = 0xFFFF#16 then some (.memOutOfRange, 0xFFFF#16) else none)
      (Reaches stores ports s) s (loadWord rd ea w s) := by
  refine answers_commitOrMemFault (by simp [Memory.readWord_eq_none]) id fun t ht => ?_
  obtain ⟨v, -, rfl⟩ := Option.map_eq_some_iff.mp ht
  exact .neither (by simp) (by simp)

theorem storeWord_reaches {ea v w : Word} :
    Answers (if ea = 0xFFFF#16 then some (.memOutOfRange, 0xFFFF#16) else none)
      (Reaches true ports s) s (storeWord ea v w s) := by
  refine answers_commitOrMemFault (by simp [writeWord_eq_none]) id fun t ht => ?_
  obtain ⟨m, -, rfl⟩ := Option.map_eq_some_iff.mp ht
  exact .memory rfl

theorem execPush_reaches {rs : Reg} : Answers (causeOf (.push rs) s) (Reaches true ports s) s (execPush rs s) := by
  refine answers_commitOrMemFault (by simp [push16_eq_none]) (fun _ => rfl) fun t ht => ?_
  obtain ⟨u, hu, rfl⟩ := Option.map_eq_some_iff.mp ht
  have he : u.env = s.env := push16_env hu
  exact .memory he

theorem execPop_reaches {rd : Reg} : Answers (causeOf (.pop rd) s) (Reaches stores ports s) s (execPop rd s) := by
  refine answers_commitOrMemFault (by simp [pop16_eq_none]) (fun _ => rfl) fun t ht => ?_
  obtain ⟨⟨v, u⟩, hu, rfl⟩ := Option.map_eq_some_iff.mp ht
  obtain ⟨hm, he⟩ := pop16_mem_env hu
  exact (Reaches.neither hm he).of_same (by simp) (by simp)

theorem execSwi_reaches : Answers (causeOf .swi s) (Reaches true ports s) s (execSwi s) :=
  answers_commitOrMemFault (enterVector_eq_none _ s) (fun _ => rfl) fun _ ht => .memory (enterVector_env ht)

theorem execReti_reaches : Answers (causeOf .reti s) (Reaches stores ports s) s (execReti s) := by
  refine answers_commitOrMemFault (returnFromInterrupt_eq_none s) (fun _ => rfl) fun t ht => ?_
  obtain ⟨hm, he⟩ := returnFromInterrupt_mem_env ht
  exact .neither hm he

theorem execInPort_reaches {rd rs : Reg} :
    Answers (causeOf (.inPort rd rs) s) (Reaches stores true s) s (execInPort rd rs s) := by
  refine answers_commitOrPortFault (by simp [portRead_eq_none]) fun t ht => ?_
  obtain ⟨⟨b, u⟩, hu, rfl⟩ := Option.map_eq_some_iff.mp ht
  exact (portRead_reaches hu).of_same (by simp) (by simp)

theorem execOutPort_reaches {rd rs : Reg} :
    Answers (causeOf (.outPort rd rs) s) (Reaches stores true s) s (execOutPort rd rs s) := by
  refine answers_commitOrPortFault (by simp [portWrite_eq_none]) fun t ht => ?_
  obtain ⟨u, hu, rfl⟩ := Option.map_eq_some_iff.mp ht
  exact (portWrite_reaches hu).of_same rfl rfl

theorem finishBlock_reaches (h : t.env = s.env) : Answers none (Reaches true ports s) s (finishBlock t) :=
  answers_next (.memory h)

/-- The search reads memory and writes none (44_block.md R267). -/
theorem execCpir_reaches : Answers none (Reaches stores ports s) s (execCpir s) := by
  obtain ⟨hm, hf⟩ := searchLoop_frame (s.x regCount).toNat s
  exact answers_next (.neither hm hf.env)

end Spaces

/-- The table over all instructions: each raises the fault it has a cause for, and otherwise reaches memory only if it
may store and the port side only if it uses ports (R61). -/
theorem exec_reaches (i : Instr) (s : State) :
    Answers (causeOf i s) (Reaches (mayStore i) (usesPort i) s) s (exec i s) := by
  cases i with
  | add | addi | addiExt | adc | sub | sbc | neg | and | or | xor | not | andi | ori | xori
  | sll | srl | sra | rol | ror | rcl | rcr => exact writeResult_reaches
  | mov | li | swap | sext | mul | mulh | mulhu | getf | getiv | lb | lbu | lbExt | lbuExt =>
    exact writeValue_reaches
  | div | divu | rem | remu => exact writeUnlessZero_reaches
  | lw | lwExt => exact loadWord_reaches
  | sw | swExt => exact storeWord_reaches
  | sb | sbExt => exact answers_next (.memory rfl)
  | push => exact execPush_reaches
  | pop => exact execPop_reaches
  | beq | bne | blt | bge | bltu | bgeu | bmi | bpl | bvs | bvc | bcs | bcc | bgt | ble | bhi | bls
  | beqFar | bneFar | bltFar | bgeFar | bltuFar | bgeuFar | bmiFar | bplFar
  | bvsFar | bvcFar | bcsFar | bccFar | bgtFar | bleFar | bhiFar | blsFar => exact branchOn_reaches
  | jalr | call => exact linkAndJump_reaches
  | ldi | ldd => exact finishBlock_reaches (copyOnce_env _ s)
  | ldir | lddr => exact finishBlock_reaches (repeatCopy_env _ _ s)
  | fill => exact finishBlock_reaches (repeatFill_env _ s)
  | cpir => exact execCpir_reaches
  | inPort => exact execInPort_reaches
  | outPort => exact execOutPort_reaches
  | swi => exact execSwi_reaches
  | reti => exact execReti_reaches
  | cmp | cmpi | tst | setf | j | jFar | jr | jmp | nop | halt | ei | di | setiv | exx =>
    exact answers_next (.neither rfl rfl)

/-- An executed instruction reaches the spaces its table entry allows, or has a cause to fault and leaves only the
report. -/
theorem exec_next_reaches {i : Instr} {s t : State} (h : exec i s = .next t) :
    (causeOf i s = none ∧ Reaches (mayStore i) (usesPort i) s t) ∨
    (causeOf i s ≠ none ∧ t.mem = s.mem ∧ AtMostOneCall s.env t.env) := by
  cases exec_reaches i s with
  | faults kind info hcause hres =>
    rw [hres, raise_eq] at h
    cases h
    exact .inr ⟨by simp [hcause], rfl, .emit s _⟩
  | completes u hcause hres hu =>
    rw [hres] at h
    cases h
    exact .inl ⟨hcause, hu⟩

/-- Settles O26: a completing instruction reaches what the table allows, a fault's report is the one output. -/
theorem spacesReachedByInstructions : Obligations.SpacesReachedByInstructions := by
  intro i s t hexec
  rcases exec_next_reaches hexec with ⟨-, hmem, henv, hcalls⟩ | ⟨hcause, hmem, hcalls⟩
  · exact ⟨fun hs a _ => by rw [hmem hs], hcalls.readPorts, hcalls.writePorts, hcalls.irqs, fun hp _ => henv hp,
      hcalls.outputs⟩
  · exact ⟨fun _ a _ => by rw [hmem], hcalls.readPorts, hcalls.writePorts, hcalls.irqs, fun _ hc => absurd hc hcause,
      hcalls.outputs⟩

end Sys2Proof.Proofs
end

section
/-! PROOFS. The decoder and the encoder as inverse maps (30_encoding.md R98 to R114): what the decoder answers on every
word, said once as `Reads`, and the statements of the encoding family that follow. -/

namespace Sys2Proof.Proofs

open Sys2Proof.Machine Sys2Proof.Spec

/-! ## Decoding what was encoded -/

theorem fetchFrom_compact {w : Word} (hx : isExtended w = false) (rest : List Byte) :
    fetchFrom (wordBytes w ++ rest) = .compact w := by
  have hw : w.extractLsb' 8 8 ++ w.extractLsb' 0 8 = w := wordOfBytes_split w
  simp [fetchFrom, wordBytes, hw, hx]

theorem fetchFrom_extended {w0 : Word} (hx : isExtended w0 = true) (w1 : Word) (rest : List Byte) :
    fetchFrom (wordBytes w0 ++ wordBytes w1 ++ rest) = .extended w0 w1 := by
  have hw0 : w0.extractLsb' 8 8 ++ w0.extractLsb' 0 8 = w0 := wordOfBytes_split w0
  have hw1 : w1.extractLsb' 8 8 ++ w1.extractLsb' 0 8 = w1 := wordOfBytes_split w1
  simp [fetchFrom, wordBytes, hw0, hw1, hx]

/-- Settles O28: the fetch finds the encoded words in front of whatever follows, and they read back. -/
theorem decodeOfEncodeIsIdentity : Obligations.DecodeOfEncodeIsIdentity := by
  intro i rest hwf
  rcases readsBack_of_wellFormed i hwf with ⟨w, henc, hx, hdec⟩ | ⟨w0, w1, henc, hx, hdec, -⟩
  · rw [encodeBytes_of_one henc, decodeBytes, fetchFrom_compact hx, hdec]
  · rw [encodeBytes_of_two henc, decodeBytes, fetchFrom_extended hx, hdec]

/-! ## What the decoder answers on a word

`Reads r bad ws` is the whole account of one answer of the decoder. There is one lemma per function of the decoder. -/

/-- The answer is undefined exactly when `bad` holds; otherwise it is a well-formed instruction that `ws` encode. -/
inductive Reads (r : DecodeResult) (bad : Prop) (ws : List Word) : Prop where
  | undefined (hbad : bad) (hr : r = .undefinedOpcode)
  | ok (i : Instr) (hgood : ¬ bad) (hr : r = .ok i) (hwf : i.wellFormed = true) (henc : encode i = ws)

section Reads

variable {r : DecodeResult} {bad : Prop} {ws : List Word} {i : Instr}

/-- An instruction is answered only for its own encoding. -/
theorem Reads.of_eq_ok (h : Reads r bad ws) (hi : r = .ok i) : i.wellFormed = true ∧ encode i = ws := by
  subst hi
  cases h with
  | undefined _ hr => cases hr
  | ok j _ hr hwf henc =>
    cases hr
    exact ⟨hwf, henc⟩

theorem Reads.eq_undefined (h : Reads r bad ws) (hbad : bad) : r = .undefinedOpcode := by
  cases h with
  | undefined _ hr => exact hr
  | ok _ hgood => exact absurd hbad hgood

theorem Reads.eq_ok (h : Reads r bad ws) (hgood : ¬ bad) : ∃ i, r = .ok i := by
  cases h with
  | undefined hbad => exact absurd hbad hgood
  | ok i _ hr => exact ⟨i, hr⟩

theorem reads_ok (hgood : ¬ bad) (hwf : i.wellFormed = true) (henc : encode i = ws) : Reads (.ok i) bad ws :=
  .ok i hgood rfl hwf henc

theorem reads_undefined (hbad : bad) : Reads .undefinedOpcode bad ws := .undefined hbad rfl

theorem reads_mustBeZero {a : Nibble} (hbad : bad ↔ a ≠ 0#4) (hwf : i.wellFormed = true)
    (henc : a = 0#4 → encode i = ws) : Reads (mustBeZero a i) bad ws := by
  by_cases ha : a = 0#4
  · exact .ok i (by simp [hbad, ha]) (if_pos ha) hwf (henc ha)
  · exact .undefined (hbad.mpr ha) (if_neg ha)

theorem reads_mustBeZero2 {a b : Nibble} (hbad : bad ↔ a ≠ 0#4 ∨ b ≠ 0#4) (hwf : i.wellFormed = true)
    (henc : a = 0#4 → b = 0#4 → encode i = ws) : Reads (mustBeZero2 a b i) bad ws := by
  by_cases h : a = 0#4 ∧ b = 0#4
  · exact .ok i (by simp [hbad, h]) (if_pos h) hwf (henc h.1 h.2)
  · exact .undefined (hbad.mpr (by rwa [← not_and_or])) (if_neg h)

end Reads

/-! ### The fields of a word under the predicates of undefined words -/

section Fields

variable (op a b c : Nibble)

@[simp] theorem extractLsb'_12_ofNibbles : (ofNibbles op a b c).extractLsb' 12 4 = op := nib3_ofNibbles op a b c
@[simp] theorem extractLsb'_8_ofNibbles : (ofNibbles op a b c).extractLsb' 8 4 = a := nib2_ofNibbles op a b c
@[simp] theorem extractLsb'_4_ofNibbles : (ofNibbles op a b c).extractLsb' 4 4 = b := nib1_ofNibbles op a b c
@[simp] theorem extractLsb'_0_ofNibbles : (ofNibbles op a b c).extractLsb' 0 4 = c := nib0_ofNibbles op a b c

end Fields

/-! ### The functions of the decoder with unassigned `func` values or must-be-zero fields (R99, R100, R103 to R108)

`split` gives one case per assigned `func` value, in the order of the decoder's tables, and last the case of the rest. -/

section Opcodes

variable (a b c : Nibble) (w1 : Word)

theorem reads_decodeLoad :
    Reads (decodeLoad a b c) (undefinedCompact (ofNibbles 0x6#4 a b c)) [ofNibbles 0x6#4 a b c] := by
  unfold decodeLoad
  split
  case h_4 =>
    have hc : 3 ≤ c.toNat := by revert c; decide
    exact reads_undefined (by simpa [undefinedCompact] using hc)
  all_goals exact reads_ok (by simp [undefinedCompact]) rfl rfl

theorem reads_decodeStore :
    Reads (decodeStore a b c) (undefinedCompact (ofNibbles 0x7#4 a b c)) [ofNibbles 0x7#4 a b c] := by
  unfold decodeStore
  split
  case h_3 =>
    have hc : 2 ≤ c.toNat := by revert c; decide
    exact reads_undefined (by simpa [undefinedCompact] using hc)
  all_goals exact reads_ok (by simp [undefinedCompact]) rfl rfl

theorem reads_decodeShift :
    Reads (decodeShift a b c) (undefinedCompact (ofNibbles 0xA#4 a b c)) [ofNibbles 0xA#4 a b c] := by
  unfold decodeShift
  split
  case h_10 =>
    have hc : 9 ≤ c.toNat := by revert c; decide
    exact reads_undefined (by simpa [undefinedCompact] using hc)
  all_goals exact reads_ok (by simp [undefinedCompact]) rfl rfl

theorem reads_decodeMulDiv :
    Reads (decodeMulDiv a b c) (undefinedCompact (ofNibbles 0xB#4 a b c)) [ofNibbles 0xB#4 a b c] := by
  unfold decodeMulDiv
  split
  case h_8 =>
    have hc : 7 ≤ c.toNat := by revert c; decide
    exact reads_undefined (by simpa [undefinedCompact] using hc)
  all_goals exact reads_ok (by simp [undefinedCompact]) rfl rfl

theorem reads_decodePort :
    Reads (decodePort a b c) (undefinedCompact (ofNibbles 0xD#4 a b c)) [ofNibbles 0xD#4 a b c] := by
  unfold decodePort
  split
  case h_3 =>
    have hc : 2 ≤ c.toNat := by revert c; decide
    exact reads_undefined (by simpa [undefinedCompact] using hc)
  all_goals exact reads_ok (by simp [undefinedCompact]) rfl rfl

theorem reads_decodeMisc :
    Reads (decodeMisc a b c) (undefinedCompact (ofNibbles 0xC#4 a b c)) [ofNibbles 0xC#4 a b c] := by
  unfold decodeMisc
  split
  case h_1 | h_2 | h_3 | h_4 | h_5 | h_6 | h_7 => exact reads_ok (by simp [undefinedCompact]) rfl rfl
  -- `PUSH` and `POP` have one must-be-zero field, what follows them two.
  case h_8 | h_9 => exact reads_mustBeZero (by simp [undefinedCompact]) rfl (by rintro rfl; rfl)
  case h_16 =>
    obtain rfl : c = 0xF#4 := by revert c; decide
    exact reads_mustBeZero2 (by simp [undefinedCompact]) rfl (by rintro rfl rfl; rfl)
  all_goals exact reads_mustBeZero2 (by simp [undefinedCompact]) rfl (by rintro rfl rfl; rfl)

theorem reads_decodeSystem :
    Reads (decodeSystem a b c) (undefinedCompact (ofNibbles 0xE#4 a b c)) [ofNibbles 0xE#4 a b c] := by
  unfold decodeSystem
  split
  -- `GETF`, `SETF`, `GETIV` and `SETIV` have one must-be-zero field, what stands before them two.
  case h_7 | h_8 | h_9 | h_10 => exact reads_mustBeZero (by simp [undefinedCompact]) rfl (by rintro rfl; rfl)
  case h_11 =>
    have hc : 10 ≤ c.toNat := by revert c; decide
    exact reads_undefined (by simp [undefinedCompact, hc])
  all_goals exact reads_mustBeZero2 (by simp [undefinedCompact]) rfl (by rintro rfl rfl; rfl)

theorem encode_compactBranch (k : Cond) (off : BitVec 8) : encode (compactBranch k off) = [ofByte 0x8#4 k.code off] := by
  cases k <;> rfl

theorem encode_farBranch (k : Cond) (off : Word) :
    encode (farBranch k off) = [ofNibbles 0xF#4 k.code 0x0#4 0xB#4, off] := by
  cases k <;> rfl

theorem wellFormed_compactBranch (k : Cond) (off : BitVec 8) : (compactBranch k off).wellFormed = true := by
  cases k <;> rfl

theorem wellFormed_farBranch (k : Cond) (off : Word) : (farBranch k off).wellFormed = true := by
  cases k <;> rfl

theorem reads_decodeExtended :
    Reads (decodeExtended a b c w1) (undefinedExtended (ofNibbles 0xF#4 a b c)) [ofNibbles 0xF#4 a b c, w1] := by
  unfold decodeExtended
  split
  -- `CMPI`, `LI` and the far branches have one must-be-zero field, the far transfers after them two.
  case h_5 | h_6 => exact reads_mustBeZero (by simp [undefinedExtended]) rfl (by rintro rfl; rfl)
  case h_12 =>
    refine reads_mustBeZero (by simp [undefinedExtended]) (wellFormed_farBranch _ _) ?_
    rintro rfl
    rw [encode_farBranch, code_condOf]
  case h_13 | h_14 | h_15 => exact reads_mustBeZero2 (by simp [undefinedExtended]) rfl (by rintro rfl rfl; rfl)
  case h_16 =>
    have hc : c = 0xF#4 := by revert c; decide
    exact reads_undefined (by simp [undefinedExtended, hc])
  all_goals exact reads_ok (by simp [undefinedExtended]) rfl rfl

end Opcodes

/-! ### Every word -/

/-- The account of one compact word. -/
abbrev ReadsCompact (w : Word) : Prop := Reads (decode (.compact w)) (undefinedCompact w) [w]

theorem ReadsCompact.of_eq {w : Word} {r : DecodeResult} (hdec : decode (.compact w) = r)
    (h : Reads r (undefinedCompact w) [w]) : ReadsCompact w := by
  rwa [← hdec] at h

section Words

variable (a b c : Nibble)

/-- The opcodes whose words are all assigned (R98, R101, R102). -/
theorem not_undefinedCompact {op : Nibble} (hop : op ≤ 0x5#4 ∨ op = 0x8#4 ∨ op = 0x9#4) :
    ¬ undefinedCompact (ofNibbles op a b c) := by
  have hne : op ≠ 0x6#4 ∧ op ≠ 0x7#4 ∧ op ≠ 0xA#4 ∧ op ≠ 0xB#4 ∧ op ≠ 0xC#4 ∧ op ≠ 0xD#4 ∧ op ≠ 0xE#4 := by
    revert op; decide
  simp [undefinedCompact, hne]

/-- A word of such an opcode is accounted for by the instruction it decodes to. -/
theorem readsCompact_of_decode {op : Nibble} {i : Instr} (hdec : decode (.compact (ofNibbles op a b c)) = .ok i)
    (hop : op ≤ 0x5#4 ∨ op = 0x8#4 ∨ op = 0x9#4) (hwf : i.wellFormed = true) (henc : encode i = [ofNibbles op a b c]) :
    ReadsCompact (ofNibbles op a b c) :=
  .ok i (not_undefinedCompact a b c hop) hdec hwf henc

/-- A word of format I or B from its fields (R91). -/
theorem ofByte_low8 (op : Nibble) : ofByte op a (low8 (ofNibbles op a b c)) = ofNibbles op a b c := by
  simpa using ofByte_nibs (ofNibbles op a b c)

/-- A word of format J from its fields (R91). -/
theorem jumpWord_low12 (op : Nibble) : op ++ low12 (ofNibbles op a b c) = ofNibbles op a b c := by
  simpa using jumpWord_nibs (ofNibbles op a b c)

theorem readsCompact_addi : ReadsCompact (ofNibbles 0x5#4 a b c) :=
  readsCompact_of_decode a b c (i := .addi a (low8 (ofNibbles 0x5#4 a b c))) (by simp [decode, decodeCompact])
    (by decide) rfl (by rw [encode, ofByte_low8])

theorem readsCompact_branch : ReadsCompact (ofNibbles 0x8#4 a b c) := by
  have hw := ofByte_low8 a b c 0x8#4
  exact readsCompact_of_decode a b c (by rw [← hw, decode_branch]) (by decide) (wellFormed_compactBranch _ _)
    (by rw [encode_compactBranch, code_condOf, hw])

/-- Bits 11 to 5 of a word are its second nibble and three bits of the third. -/
theorem low12_slice (op : Nibble) : (low12 (ofNibbles op a b c)).extractLsb' 5 7 = a ++ b.extractLsb' 1 3 := by
  apply BitVec.eq_of_getLsbD_eq
  intro i hi
  simp only [low12, ofNibbles, BitVec.getLsbD_extractLsb', BitVec.getLsbD_append]
  interval_cases i <;> simp

/-- The slice of the register jumps by its nibbles: 0x8, then 0x0 for `JR` or 0x1 for `JALR` (R102). -/
theorem slice_nibbles : ∀ a b : Nibble, a ++ b.extractLsb' 1 3 = 0b1000000#7 →
    a = 0x8#4 ∧ (b = 0x0#4 ∨ b = 0x1#4) := by decide

theorem readsCompact_jump : ReadsCompact (ofNibbles 0x9#4 a b c) := by
  cases hs : inRegisterJumpSlice (low12 (ofNibbles 0x9#4 a b c)) with
  | false =>
    have hw := jumpWord_low12 a b c 0x9#4
    have hdec : decode (.compact (ofNibbles 0x9#4 a b c)) = .ok (.j (low12 (ofNibbles 0x9#4 a b c))) := by
      simpa only [hw] using decode_jump hs
    exact readsCompact_of_decode a b c hdec (by decide) (by simp [Instr.wellFormed, hs]) (by rw [encode, hw])
  | true =>
    obtain ⟨rfl, rfl | rfl⟩ := slice_nibbles a b (by simpa [inRegisterJumpSlice, low12_slice] using hs)
    · exact readsCompact_of_decode _ _ c (decode_jr c) (by decide) rfl rfl
    · exact readsCompact_of_decode _ _ c (decode_jalr c) (by decide) rfl rfl

theorem opcode_cases : ∀ op : Nibble, op = 0xF#4 ∨ op = 0x0#4 ∨ op = 0x1#4 ∨ op = 0x2#4 ∨ op = 0x3#4 ∨ op = 0x4#4 ∨
    op = 0x5#4 ∨ op = 0x6#4 ∨ op = 0x7#4 ∨ op = 0x8#4 ∨ op = 0x9#4 ∨ op = 0xA#4 ∨ op = 0xB#4 ∨ op = 0xC#4 ∨
    op = 0xD#4 ∨ op = 0xE#4 := by decide

/-- The table over all opcodes of compact words (R110). -/
theorem readsCompact_ofNibbles {op : Nibble} (hop : op ≠ 0xF#4) : ReadsCompact (ofNibbles op a b c) := by
  rcases (opcode_cases op).resolve_left hop with
    rfl | rfl | rfl | rfl | rfl | rfl | rfl | rfl | rfl | rfl | rfl | rfl | rfl | rfl | rfl
  · exact readsCompact_of_decode a b c (i := .add a b c) (by simp [decode, decodeCompact]) (by decide) rfl rfl
  · exact readsCompact_of_decode a b c (i := .sub a b c) (by simp [decode, decodeCompact]) (by decide) rfl rfl
  · exact readsCompact_of_decode a b c (i := .and a b c) (by simp [decode, decodeCompact]) (by decide) rfl rfl
  · exact readsCompact_of_decode a b c (i := .or a b c) (by simp [decode, decodeCompact]) (by decide) rfl rfl
  · exact readsCompact_of_decode a b c (i := .xor a b c) (by simp [decode, decodeCompact]) (by decide) rfl rfl
  · exact readsCompact_addi a b c
  · exact .of_eq (decode_load a b c) (reads_decodeLoad a b c)
  · exact .of_eq (decode_store a b c) (reads_decodeStore a b c)
  · exact readsCompact_branch a b c
  · exact readsCompact_jump a b c
  · exact .of_eq (decode_shift a b c) (reads_decodeShift a b c)
  · exact .of_eq (decode_mulDiv a b c) (reads_decodeMulDiv a b c)
  · exact .of_eq (decode_misc a b c) (reads_decodeMisc a b c)
  · exact .of_eq (decode_port a b c) (reads_decodePort a b c)
  · exact .of_eq (decode_system a b c) (reads_decodeSystem a b c)

theorem readsCompact_of_not_isExtended {w : Word} (hx : isExtended w = false) : ReadsCompact w := by
  rw [← ofNibbles_nibs w]
  exact readsCompact_ofNibbles _ _ _ (by simpa [isExtended] using hx)

theorem reads_extended {w0 : Word} (hx : isExtended w0 = true) (w1 : Word) :
    Reads (decode (.extended w0 w1)) (undefinedExtended w0) [w0, w1] := by
  have hop : nib3 w0 = 0xF#4 := by simpa [isExtended] using hx
  rw [← ofNibbles_nibs w0, hop, decode_extended]
  exact reads_decodeExtended _ _ _ w1

end Words

/-! ## Encoding what was decoded -/

theorem wordBytes_append (lo hi : Byte) : wordBytes (hi ++ lo) = [lo, hi] := by
  rw [wordBytes, BitVec.extractLsb'_append_eq_right, BitVec.extractLsb'_append_eq_left]

/-- What a fetch found stands at the front of the bytes, one word or two as its opcode announces (R90). -/
theorem fetchFrom_cases (bytes : List Byte) :
    (∃ w rest, fetchFrom bytes = .compact w ∧ isExtended w = false ∧ bytes = wordBytes w ++ rest) ∨
    (∃ w0 w1 rest, fetchFrom bytes = .extended w0 w1 ∧ isExtended w0 = true ∧
      bytes = wordBytes w0 ++ wordBytes w1 ++ rest) ∨
    fetchFrom bytes = .truncated := by
  rcases bytes with _ | ⟨b0, _ | ⟨b1, rest⟩⟩
  · exact .inr (.inr rfl)
  · exact .inr (.inr rfl)
  cases hx : isExtended (b1 ++ b0) with
  | false => exact .inl ⟨b1 ++ b0, rest, by simp [fetchFrom, hx], hx, by simp [wordBytes_append]⟩
  | true =>
    rcases rest with _ | ⟨b2, _ | ⟨b3, rest⟩⟩
    · exact .inr (.inr (by simp [fetchFrom, hx]))
    · exact .inr (.inr (by simp [fetchFrom, hx]))
    · exact .inr (.inl ⟨b1 ++ b0, b3 ++ b2, rest, by simp [fetchFrom, hx], hx, by simp [wordBytes_append]⟩)

/-- Settles O29: the fetched words stand at the front of the bytes, and an answer is given only for its own encoding. -/
theorem encodeOfDecodeIsIdentity : Obligations.EncodeOfDecodeIsIdentity := by
  intro bytes i hdec
  rw [decodeBytes] at hdec
  rcases fetchFrom_cases bytes with ⟨w, rest, hf, hx, hbytes⟩ | ⟨w0, w1, rest, hf, hx, hbytes⟩ | hf <;> rw [hf] at hdec
  · obtain ⟨hwf, henc⟩ := (readsCompact_of_not_isExtended hx).of_eq_ok hdec
    exact ⟨hwf, rest, by rw [encodeBytes_of_one henc, hbytes]⟩
  · obtain ⟨hwf, henc⟩ := (reads_extended hx w1).of_eq_ok hdec
    exact ⟨hwf, rest, by rw [encodeBytes_of_two henc, hbytes]⟩
  · cases hdec

/-! ## Undefined encodings (R109, R112, R313) -/

/-- A step that fetches an undefined encoding faults with the first word as detail (R313). -/
theorem step_of_undefined {s : State} (hr : ReadyToFetch s) (hu : s.fetchDecode = .undefinedOpcode) :
    step s = .next (faultedState .undefinedOpcode (s.mem.wordAt s.pc) s.deliver) := by
  have ⟨hrun, _⟩ := hr
  have haccept : s.deliver.acceptsInterrupt = false := not_acceptsInterrupt_of_readyToFetch hr
  simp [step, stepAtBoundary, hrun, haccept, fetchDecode_deliver, hu, raise_eq, faultedState, State.emit]

theorem fetch_eq_compact {m : Memory} {pc w : Word} (h : fetch m pc = .compact w) :
    m.wordAt pc = w ∧ isExtended w = false := by
  unfold fetch at h
  split_ifs at h with _ hx
  cases h
  exact ⟨rfl, by simpa using hx⟩

theorem fetch_eq_extended {m : Memory} {pc w0 w1 : Word} (h : fetch m pc = .extended w0 w1) :
    m.wordAt pc = w0 ∧ isExtended w0 = true := by
  unfold fetch at h
  split_ifs at h with _ hx
  cases h
  exact ⟨rfl, by simpa using hx⟩

/-- Settles O5 from the account of every word. -/
theorem undefinedEncodingsFault : Obligations.UndefinedEncodingsFault := by
  refine ⟨fun w hx => ?_, fun w0 w1 hx => ?_, fun s hr => ⟨fun w0 hf hbad => ?_, fun w0 w1 hf hbad => ?_⟩⟩
  · exact ⟨(readsCompact_of_not_isExtended hx).eq_undefined, (readsCompact_of_not_isExtended hx).eq_ok⟩
  · exact ⟨(reads_extended hx w1).eq_undefined, (reads_extended hx w1).eq_ok⟩
  · obtain ⟨hw, hx⟩ := fetch_eq_compact hf
    have hdec : s.fetchDecode = .undefinedOpcode :=
      (congrArg decode hf).trans ((readsCompact_of_not_isExtended hx).eq_undefined hbad)
    rw [step_of_undefined hr hdec, hw]
  · obtain ⟨hw, hx⟩ := fetch_eq_extended hf
    have hdec : s.fetchDecode = .undefinedOpcode :=
      (congrArg decode hf).trans ((reads_extended hx w1).eq_undefined hbad)
    rw [step_of_undefined hr hdec, hw]

/-- Settles O30: twelve closed instances of the decoder. -/
theorem sampleWordsDecode : Obligations.SampleWordsDecode := by
  unfold Obligations.SampleWordsDecode
  decide

end Sys2Proof.Proofs
end

section
/-! PROOFS. The form an assembler selects reaches its target (30_encoding.md R116, R117, R119). -/

namespace Sys2Proof.Proofs

open Sys2Proof.Machine Sys2Proof.Spec

/-! ## Executing a transfer -/

section Transfers

variable {s : State} {i : Instr}

theorem exec_compactBranch (c : Cond) (off : BitVec 8) (s : State) :
    exec (compactBranch c off) s = branchOn c 2#16 (relativeTarget s.pc 2 off.toInt) s := by
  cases c <;> rfl

theorem exec_farBranch (c : Cond) (off : Word) (s : State) :
    exec (farBranch c off) s = branchOn c 4#16 (relativeTarget s.pc 4 off.toInt) s := by
  cases c <;> rfl

theorem width_compactBranch (c : Cond) (off : BitVec 8) : (compactBranch c off).width = 2 := by
  rw [Instr.width, encode_compactBranch, List.length_singleton]

theorem width_farBranch (c : Cond) (off : Word) : (farBranch c off).width = 4 := by
  rw [Instr.width, encode_farBranch, List.length_cons, List.length_singleton]

/-- An instruction that only redirects `pc` leaves everything else. -/
theorem onlyFlagsAndPc_of_jumpTo {a : Word} (h : exec i s = .next (s.jumpTo a)) : OnlyFlagsAndPc i s.flags a s :=
  ⟨_, h, rfl, rfl, fun _ _ => rfl, fun _ _ => rfl, rfl, rfl, rfl, rfl, rfl, rfl⟩

/-- A branch of either form goes to its target when the condition holds and advances when it does not (42_control.md
R200, R201). -/
theorem goesIf_of_branchOn {c : Cond} {w a : Word} (h : exec i s = branchOn c w a s) :
    GoesIf i s (condHolds c s.flags = true) a (s.pc + w) := by
  constructor
  · intro hc
    exact onlyFlagsAndPc_of_jumpTo (h.trans (if_pos hc))
  · intro hc
    exact onlyFlagsAndPc_of_jumpTo (h.trans (if_neg hc))

end Transfers

/-! ## Offsets -/

/-- An offset is half the byte difference, between the bounds (R117). -/
theorem eq_of_fittingOffset {delta lo hi o : Int} (h : fittingOffset delta lo hi = some o) :
    delta = 2 * o ∧ lo ≤ o ∧ o ≤ hi := by
  unfold fittingOffset at h
  split_ifs at h with hfit
  obtain ⟨heven, hlo, hhi⟩ := hfit
  cases h
  exact ⟨by omega, hlo, hhi⟩

/-- The compact offset leads back to the target, `pc + 2` not being reduced (R116, log 23). -/
theorem relativeTarget_of_compactOffset {pc addr : Word} {lo hi o : Int} (h : compactOffset pc addr lo hi = some o) :
    relativeTarget pc 2 o = addr ∧ lo ≤ o ∧ o ≤ hi := by
  obtain ⟨hdelta, hbounds⟩ := eq_of_fittingOffset h
  have hsum : (pc.toNat : Int) + 2 + 2 * o = addr.toNat := by
    simp only [byteDelta] at hdelta
    omega
  exact ⟨by rw [relativeTarget, hsum, BitVec.ofInt_natCast, BitVec.ofNat_toNat, BitVec.setWidth_eq], hbounds⟩

/-- The far offset leads back to the target modulo 2^16 (R119, log 23). -/
theorem relativeTarget_of_farOffset {pc addr : Word} {o : Int} (h : farOffset pc addr = some o) :
    relativeTarget pc 4 o = addr ∧ -32767 ≤ o ∧ o ≤ 32767 := by
  obtain ⟨hdelta, hbounds⟩ := eq_of_fittingOffset h
  refine ⟨BitVec.eq_of_toNat_eq ?_, hbounds⟩
  have hnext : (pc + 4#16).toNat = (pc.toNat + 4) % 65536 := BitVec.toNat_add pc 4#16
  have haddr := addr.isLt
  simp only [byteDelta, hnext] at hdelta
  rw [relativeTarget, BitVec.toNat_ofInt]
  omega

/-- The offsets of the slice are those below -2016 (R102). -/
theorem inRegisterJumpSlice_iff (off : BitVec 12) : inRegisterJumpSlice off = true ↔ off.toInt < -2016 := by
  have hoff := off.isLt
  have hslice : off.extractLsb' 5 7 = 0b1000000#7 ↔ off.toNat / 32 % 128 = 64 := by
    rw [← BitVec.toNat_inj, BitVec.extractLsb'_toNat, Nat.shiftRight_eq_div_pow]
    rfl
  rw [inRegisterJumpSlice, beq_iff_eq, hslice, BitVec.toInt_eq_toNat_cond]
  split <;> omega

/-! ## The selected forms -/

section Forms

variable {s : State} {addr : Word} {i : Instr}

theorem chooseBranch_cases {c : Cond} {pc : Word} (h : chooseBranch c pc addr = some i) :
    (∃ off : BitVec 8, i = compactBranch c off ∧ relativeTarget pc 2 off.toInt = addr) ∨
    (∃ off : Word, i = farBranch c off ∧ relativeTarget pc 4 off.toInt = addr) := by
  unfold chooseBranch at h
  split at h
  · next o ho =>
    obtain ⟨htarget, hlo, hhi⟩ := relativeTarget_of_compactOffset ho
    cases h
    exact .inl ⟨_, rfl, by rw [BitVec.toInt_ofInt_eq_self (by decide) (by omega) (by omega), htarget]⟩
  · obtain ⟨o, ho, rfl⟩ := Option.map_eq_some_iff.mp h
    obtain ⟨htarget, hlo, hhi⟩ := relativeTarget_of_farOffset ho
    exact .inr ⟨_, rfl, by rw [BitVec.toInt_ofInt_eq_self (by decide) (by omega) (by omega), htarget]⟩

theorem chooseJump_cases {pc : Word} (h : chooseJump pc addr = some i) :
    (∃ off : BitVec 12, i = .j off ∧ inRegisterJumpSlice off = false ∧ relativeTarget pc 2 off.toInt = addr) ∨
    (∃ off : Word, i = .jFar off ∧ relativeTarget pc 4 off.toInt = addr) := by
  unfold chooseJump at h
  split at h
  · next o ho =>
    obtain ⟨htarget, hlo, hhi⟩ := relativeTarget_of_compactOffset ho
    have hoff : (BitVec.ofInt 12 o).toInt = o := BitVec.toInt_ofInt_eq_self (by decide) (by omega) (by omega)
    have hslice : ¬ inRegisterJumpSlice (BitVec.ofInt 12 o) = true := by
      rw [inRegisterJumpSlice_iff, hoff]
      omega
    cases h
    exact .inl ⟨_, rfl, by simpa using hslice, by rw [hoff, htarget]⟩
  · obtain ⟨o, ho, rfl⟩ := Option.map_eq_some_iff.mp h
    obtain ⟨htarget, hlo, hhi⟩ := relativeTarget_of_farOffset ho
    exact .inr ⟨_, rfl, by rw [BitVec.toInt_ofInt_eq_self (by decide) (by omega) (by omega), htarget]⟩

theorem goesIf_of_chooseBranch {c : Cond} (h : chooseBranch c s.pc addr = some i) :
    i.wellFormed = true ∧ GoesIf i s (condHolds c s.flags = true) addr (s.pc + BitVec.ofNat 16 i.width) := by
  rcases chooseBranch_cases h with ⟨off, rfl, htarget⟩ | ⟨off, rfl, htarget⟩
  · rw [width_compactBranch]
    exact ⟨wellFormed_compactBranch c off, goesIf_of_branchOn (htarget ▸ exec_compactBranch c off s)⟩
  · rw [width_farBranch]
    exact ⟨wellFormed_farBranch c off, goesIf_of_branchOn (htarget ▸ exec_farBranch c off s)⟩

theorem onlyFlagsAndPc_of_chooseJump (h : chooseJump s.pc addr = some i) :
    i.wellFormed = true ∧ OnlyFlagsAndPc i s.flags addr s := by
  rcases chooseJump_cases h with ⟨off, rfl, hslice, rfl⟩ | ⟨off, rfl, rfl⟩
  · exact ⟨by simp [Instr.wellFormed, hslice], onlyFlagsAndPc_of_jumpTo rfl⟩
  · exact ⟨rfl, onlyFlagsAndPc_of_jumpTo rfl⟩

end Forms

/-- Settles O60: a selected offset leads back to the target, and both forms go where their offset leads. -/
theorem assembledTransferReachesTarget : Obligations.AssembledTransferReachesTarget :=
  fun _ _ _ => ⟨fun _ => goesIf_of_chooseBranch, onlyFlagsAndPc_of_chooseJump⟩

end Sys2Proof.Proofs
end

section
/-! PROOFS. Arithmetic, logic, compare and move (40_alu.md): each instruction's words read back, and the instruction is one
of the common ends `writeSum`, `writeDiff`, `writeLogic`, `writeValue` and `writeFlags`, whose effect and frame are said
once. -/

namespace Sys2Proof.Proofs

open Sys2Proof.Machine Sys2Proof.Spec

/-! ## Encodings, both ways (30_encoding.md R90, R109, R110) -/

section Words

variable {i : Instr}

/-- The word of a well-formed one-word instruction is its compact encoding in both directions. -/
theorem compact_of_encode {w : Word} (hwf : i.wellFormed = true) (henc : encode i = [w]) : Compact w i := by
  rcases readsBack_of_wellFormed i hwf with ⟨w', hw⟩ | ⟨w0, w1, henc', -⟩
  · have ⟨henc', _⟩ := hw
    cases henc.symm.trans henc'
    exact hw
  · cases henc.symm.trans henc'

/-- The words of a well-formed two-word instruction are its extended encoding in both directions. -/
theorem extended_of_encode {w0 w1 : Word} (hwf : i.wellFormed = true) (henc : encode i = [w0, w1]) :
    Extended w0 w1 i := by
  rcases readsBack_of_wellFormed i hwf with ⟨w, henc', -⟩ | ⟨w0', w1', hw⟩
  · cases henc.symm.trans henc'
  · have ⟨henc', _⟩ := hw
    cases henc.symm.trans henc'
    exact hw

/-- A field that the extended table tests for zero leaves no other value defined (R108, R109). -/
theorem extFieldMustBeZero_of_mustBeZero {a c : Nibble} {make : Word → Instr}
    (h : ∀ b w1, decodeExtended a b c w1 = mustBeZero b (make w1)) :
    ExtFieldMustBeZero fun b => word4 0xF#4 a b c := by
  intro b w1 hb
  calc decode (.extended (word4 0xF#4 a b c) w1)
    _ = decodeExtended a b c w1 := decode_extended a b c w1
    _ = mustBeZero b (make w1) := h b w1
    _ = .undefinedOpcode := if_neg hb

end Words

/-! ## The common ends: what they leave -/

section CommonEnds

variable {s : State} {i : Instr} {rd : Reg} {a b r w : Word} {cin : Bool} {f : Flags}

/-- The index just written reads the value, and index 0 reads zero (10_state.md R23, R24). -/
theorem x_setX_eq_written (s : State) (rd : Reg) (r : Word) : (s.setX rd r).x rd = written rd r := by
  unfold written
  split
  next h => subst h; exact State.x_zero _
  next h => exact State.x_setX_same s r h

/-- A register write changes no physical register but the one its index names, and none for index 0 (R24). -/
theorem otherRegisters_setX (s : State) (rd : Reg) (r : Word) : OtherRegisters s (s.setX rd r) [rd] :=
  fun _ hp => State.phys_setX_other s r (hp rd List.mem_cons_self)

theorem computes_of_writeResult (h : exec i s = writeResult rd r f w s) : Computes i w rd r f s :=
  ⟨_, h, x_setX_eq_written s rd r, rfl, by simp, otherRegisters_setX s rd r, fun _ _ => by simp, by simp [SameControl]⟩

/-- Writing no flag is writing back the flags as they are. -/
theorem writeValue_eq_writeResult (rd : Reg) (r w : Word) (s : State) :
    writeValue rd r w s = writeResult rd r s.flags w s := by
  rw [writeResult, ← State.setX_flags s rd r]
  rfl

theorem computes_of_writeValue (h : exec i s = writeValue rd r w s) : Computes i w rd r s.flags s :=
  computes_of_writeResult (h.trans (writeValue_eq_writeResult rd r w s))

theorem computes_of_writeSum (h : exec i s = writeSum rd a b cin w s) :
    Computes i w rd (addFlags a b cin).1 (addFlags a b cin).2 s :=
  computes_of_writeResult h

theorem computes_of_writeDiff (h : exec i s = writeDiff rd a b cin w s) :
    Computes i w rd (a - b - BitVec.ofNat 16 (1 - cin.toNat)) (subFlags a b cin).2 s :=
  subFlags_result a b cin ▸ computes_of_writeResult h

/-- With carry in 1 nothing more is subtracted (R33). -/
theorem computes_of_writeDiff_true (h : exec i s = writeDiff rd a b true w s) :
    Computes i w rd (a - b) (subFlags a b true).2 s :=
  subFlags_true_result a b ▸ computes_of_writeResult h

theorem computes_of_writeLogic (h : exec i s = writeLogic rd r w s) : Computes i w rd r (logicFlags r s.flags) s :=
  computes_of_writeResult h

theorem onlyFlagsAndPc_of_writeFlags (h : exec i s = writeFlags f w s) : OnlyFlagsAndPc i f (s.pc + w) s :=
  ⟨_, h, rfl, rfl, fun _ _ => rfl, fun _ _ => rfl, rfl, rfl, rfl, rfl, rfl, rfl⟩

end CommonEnds

/-! ## The instructions -/

/-- Settles O34: all four end in `writeSum`. -/
theorem additionInstructions : Obligations.AdditionInstructions := fun _ _ _ _ _ _ =>
  ⟨⟨compact_of_encode rfl rfl, computes_of_writeSum rfl⟩,
    ⟨compact_of_encode rfl rfl, computes_of_writeSum rfl⟩,
    ⟨extended_of_encode rfl rfl, computes_of_writeSum rfl⟩,
    ⟨compact_of_encode rfl rfl, computes_of_writeSum rfl⟩⟩

/-- Settles O35: all three end in `writeDiff`, `SUB` and `NEG` with carry in 1. -/
theorem subtractionInstructions : Obligations.SubtractionInstructions := fun _ _ _ _ =>
  ⟨⟨compact_of_encode rfl rfl, computes_of_writeDiff_true rfl⟩,
    ⟨compact_of_encode rfl rfl, computes_of_writeDiff_true rfl⟩,
    ⟨compact_of_encode rfl rfl, computes_of_writeDiff rfl⟩⟩

/-- Settles O36: all three end in `writeFlags`. -/
theorem comparisonInstructions : Obligations.ComparisonInstructions := fun _ _ _ _ =>
  ⟨⟨extended_of_encode rfl rfl, extFieldMustBeZero_of_mustBeZero fun _ _ => rfl, onlyFlagsAndPc_of_writeFlags rfl⟩,
    ⟨compact_of_encode rfl rfl, onlyFlagsAndPc_of_writeFlags rfl⟩,
    ⟨compact_of_encode rfl rfl, onlyFlagsAndPc_of_writeFlags rfl⟩⟩

/-- Settles O37: all four end in `writeLogic`. -/
theorem bitwiseInstructions : Obligations.BitwiseInstructions := fun _ _ _ _ =>
  ⟨⟨compact_of_encode rfl rfl, computes_of_writeLogic rfl⟩,
    ⟨compact_of_encode rfl rfl, computes_of_writeLogic rfl⟩,
    ⟨compact_of_encode rfl rfl, computes_of_writeLogic rfl⟩,
    ⟨compact_of_encode rfl rfl, computes_of_writeLogic rfl⟩⟩

/-- Settles O38: all three end in `writeLogic`. -/
theorem immediateBitwiseInstructions : Obligations.ImmediateBitwiseInstructions := fun _ _ _ _ =>
  ⟨⟨extended_of_encode rfl rfl, computes_of_writeLogic rfl⟩,
    ⟨extended_of_encode rfl rfl, computes_of_writeLogic rfl⟩,
    ⟨extended_of_encode rfl rfl, computes_of_writeLogic rfl⟩⟩

/-- Settles O39: all four end in `writeValue`. -/
theorem moveInstructions : Obligations.MoveInstructions := fun _ _ _ _ =>
  ⟨⟨compact_of_encode rfl rfl, computes_of_writeValue rfl⟩,
    ⟨extended_of_encode rfl rfl, extFieldMustBeZero_of_mustBeZero fun _ _ => rfl, computes_of_writeValue rfl⟩,
    ⟨compact_of_encode rfl rfl, computes_of_writeValue rfl⟩,
    ⟨compact_of_encode rfl rfl, computes_of_writeValue rfl⟩⟩

end Sys2Proof.Proofs
end

section
/-! PROOFS. Shifts, multiply and divide (41_shift_muldiv.md): the model's one-place moves are the library's shifts and
rotates, its quotient and remainder the library's signed ones, and the laws of products and quotients follow from those of
the integers. -/

namespace Sys2Proof.Proofs

open Sys2Proof.Machine Sys2Proof.Spec

/-! ## One place up and one place down -/

section Shifting

variable (v : Word) (b : Bool)

theorem getLsbD_shiftUp (i : Nat) :
    (shiftUp v b).getLsbD i = if i = 0 then b else decide (i < 16) && v.getLsbD (i - 1) := by
  unfold shiftUp
  rw [BitVec.getLsbD_append]
  cases i with
  | zero => simp
  | succ i =>
    have hbound : i + 1 < 16 ↔ i < 15 := by omega
    simp [hbound]

theorem getLsbD_shiftDown (i : Nat) :
    (shiftDown b v).getLsbD i = if i < 15 then v.getLsbD (i + 1) else decide (i = 15) && b := by
  unfold shiftDown
  rw [BitVec.getLsbD_append]
  by_cases hi : i < 15
  · simp [hi, Nat.add_comm]
  · by_cases h15 : i = 15
    · simp [h15]
    · have hb : i - 15 ≠ 0 := by omega
      simp [hi, h15, hb, BitVec.getLsbD_ofBool]

/-- Zero entering at bit 0 is the logical shift left (R170). -/
theorem shiftUp_false : shiftUp v false = v <<< 1 := by
  refine BitVec.eq_of_getLsbD_eq fun i hi => ?_
  rw [getLsbD_shiftUp, BitVec.getLsbD_shiftLeft]
  cases i with
  | zero => simp
  | succ i => simp

/-- The bit that left entering at bit 0 is the rotation left (R173). -/
theorem shiftUp_top : shiftUp v (v.getLsbD 15) = v.rotateLeft 1 := by
  refine BitVec.eq_of_getLsbD_eq fun i hi => ?_
  rw [getLsbD_shiftUp, BitVec.getLsbD_rotateLeft]
  cases i with
  | zero => simp
  | succ i => simp

/-- Zero entering at bit 15 is the logical shift right (R171). -/
theorem shiftDown_false : shiftDown false v = v >>> 1 := by
  refine BitVec.eq_of_getLsbD_eq fun i hi => ?_
  rw [getLsbD_shiftDown, BitVec.getLsbD_ushiftRight]
  by_cases h15 : i = 15
  · simp [h15]
  · have hlt : i < 15 := by omega
    simp [hlt, Nat.add_comm]

/-- The sign entering at bit 15 is the arithmetic shift right (R172). -/
theorem shiftDown_top : shiftDown (v.getLsbD 15) v = v.sshiftRight 1 := by
  refine BitVec.eq_of_getLsbD_eq fun i hi => ?_
  rw [getLsbD_shiftDown, BitVec.getLsbD_sshiftRight]
  by_cases h15 : i = 15
  · simp [h15, BitVec.msb_eq_getLsbD_last]
  · have hlt : i < 15 := by omega
    have hle : ¬ 16 ≤ i := by omega
    simp [hlt, hle, Nat.add_comm 1]

/-- The bit that left entering at bit 15 is the rotation right (R174). -/
theorem shiftDown_bottom : shiftDown (v.getLsbD 0) v = v.rotateRight 1 := by
  refine BitVec.eq_of_getLsbD_eq fun i hi => ?_
  rw [getLsbD_shiftDown, BitVec.getLsbD_rotateRight]
  by_cases h15 : i = 15
  · simp [h15]
  · have hlt : i < 15 := by omega
    simp [hlt, Nat.add_comm]

end Shifting

/-! ## The common ends: what they leave -/

section CommonEnds

variable {s : State} {i : Instr} {rd : Reg} {d r v w : Word} {cout : Bool} {f : Flags}

theorem computes_of_writeShift (h : exec i s = writeShift rd r cout s) :
    Computes i 2#16 rd r (shiftFlags r cout s.flags) s :=
  computes_of_writeResult h

theorem computes_of_writeUnlessZero (hd : d ≠ 0x0000#16) (h : exec i s = writeUnlessZero d rd r s) :
    Computes i 2#16 rd r s.flags s :=
  computes_of_writeValue (h.trans (if_neg hd))

theorem faults_of_writeUnlessZero (hd : d = 0x0000#16) (h : exec i s = writeUnlessZero d rd r s) :
    Faults i .divideByZero s.pc s :=
  h.trans (if_pos hd)

/-- A destination other than `R0` holds the computed value afterwards. -/
theorem exists_next_of_computes (hrd : rd ≠ 0#4) (h : Computes i w rd v f s) :
    ∃ t, exec i s = .next t ∧ t.x rd = v := by
  obtain ⟨t, hexec, hx, -⟩ := h
  exact ⟨t, hexec, hx.trans (if_neg hrd)⟩

end CommonEnds

/-! ## The quotients and remainders of the model -/

section Quotients

variable (a b : Word)

/-- Narrowing to 16 bits makes −32768 / −1 the 0x8000 of `sdiv` (R183, D23). -/
theorem signedQuotient_eq_sdiv : signedQuotient a b = a.sdiv b :=
  BitVec.eq_of_toInt_eq ((BitVec.toInt_ofInt _).trans (BitVec.toInt_sdiv a b).symm)

theorem signedRemainder_eq_srem : signedRemainder a b = a.srem b := by
  have htmod : a.toInt - a.toInt.tdiv b.toInt * b.toInt = (a.srem b).toInt := by
    rw [BitVec.toInt_srem, Int.tmod_def, Int.mul_comm]
  rw [signedRemainder, htmod, BitVec.ofInt_toInt]

theorem ofNat_toNat_div : BitVec.ofNat 16 (a.toNat / b.toNat) = a / b := by
  rw [← BitVec.toNat_udiv, BitVec.ofNat_toNat, BitVec.setWidth_eq]

theorem ofNat_toNat_mod : BitVec.ofNat 16 (a.toNat % b.toNat) = a % b := by
  rw [← BitVec.toNat_umod, BitVec.ofNat_toNat, BitVec.setWidth_eq]

end Quotients

/-! ## The halves of a product (R187) -/

section Products

variable (a b : Word)

/-- The low half is the same for both readings of the factors (R180). -/
theorem toNat_mulLow_eq_toInt_emod :
    ((BitVec.ofNat 16 (a.toNat * b.toNat)).toNat : Int) = a.toInt * b.toInt % 65536 := by
  have hlow : BitVec.ofNat 16 (a.toNat * b.toNat) = BitVec.ofInt 16 (a.toInt * b.toInt) := by
    rw [BitVec.ofNat_mul, BitVec.ofInt_mul, BitVec.ofInt_toInt, BitVec.ofInt_toInt]
    simp
  rw [hlow, BitVec.toNat_ofInt]
  exact Int.toNat_of_nonneg (Int.emod_nonneg _ (by decide))

/-- The signed product fits in 32 bits, so its high half is not narrowed. -/
theorem toInt_mulHigh :
    (BitVec.ofInt 16 (Int.fdiv (a.toInt * b.toInt) 65536)).toInt = a.toInt * b.toInt / 65536 := by
  have hle : a.toInt * b.toInt ≤ 2 ^ (16 * 2 - 2) := BitVec.toInt_mul_toInt_le
  have hge : -2 ^ (16 * 2 - 2) ≤ a.toInt * b.toInt := BitVec.le_toInt_mul_toInt
  rw [Int.fdiv_eq_ediv_of_nonneg _ (by decide), BitVec.toInt_ofInt]
  exact Int.bmod_eq_of_le (by omega) (by omega)

theorem mulHigh_mulLow_signed :
    (BitVec.ofInt 16 (Int.fdiv (a.toInt * b.toInt) 65536)).toInt * 65536 +
      (BitVec.ofNat 16 (a.toNat * b.toNat)).toNat = a.toInt * b.toInt := by
  rw [toInt_mulHigh, toNat_mulLow_eq_toInt_emod, Int.mul_comm _ 65536]
  exact Int.mul_ediv_add_emod _ _

theorem mulHigh_mulLow_unsigned :
    (BitVec.ofNat 16 (a.toNat * b.toNat / 65536)).toNat * 65536 +
      (BitVec.ofNat 16 (a.toNat * b.toNat)).toNat = a.toNat * b.toNat := by
  have hlt : a.toNat * b.toNat < 65536 * 65536 := Nat.mul_lt_mul'' a.isLt b.isLt
  simp only [BitVec.toNat_ofNat]
  omega

end Products

/-! ## Quotient and remainder make the dividend (R185, R187) -/

section Divisions

variable {a b : Word}

theorem toNat_ne_zero_of_ne (hb : b ≠ 0x0000#16) : b.toNat ≠ 0 :=
  fun h => hb (BitVec.eq_of_toNat_eq h)

theorem toInt_ne_zero_of_ne (hb : b ≠ 0x0000#16) : b.toInt ≠ 0 :=
  fun h => hb (BitVec.eq_of_toInt_eq h)

theorem udiv_umod_law (hb : b ≠ 0x0000#16) :
    a.toNat = (a / b).toNat * b.toNat + (a % b).toNat ∧ (a % b).toNat < b.toNat := by
  rw [BitVec.toNat_udiv, BitVec.toNat_umod]
  exact ⟨(Nat.div_add_mod' _ _).symm, Nat.mod_lt _ (Nat.pos_of_ne_zero (toNat_ne_zero_of_ne hb))⟩

/-- The only quotient that does not fit in 16 bits is −32768 / −1. -/
theorem sdiv_srem_law (h : ¬ (a = 0x8000#16 ∧ b = 0xFFFF#16)) :
    a.toInt = (a.sdiv b).toInt * b.toInt + (a.srem b).toInt := by
  have hfits : a ≠ BitVec.intMin 16 ∨ b ≠ -1#16 := not_and_or.mp h
  rw [BitVec.toInt_sdiv_of_ne_or_ne a b hfits, BitVec.toInt_srem, Int.mul_comm]
  exact (Int.mul_tdiv_add_tmod _ _).symm

theorem natAbs_srem_lt (hb : b ≠ 0x0000#16) : (a.srem b).toInt.natAbs < b.toInt.natAbs := by
  rw [BitVec.toInt_srem, Int.natAbs_tmod]
  exact Nat.mod_lt _ (Int.natAbs_pos.mpr (toInt_ne_zero_of_ne hb))

/-- A remainder that is not zero has the sign of the dividend (R185). -/
theorem srem_sign (a b : Word) : a.srem b = 0x0000#16 ∨ ((a.srem b).toInt < 0 ↔ a.toInt < 0) := by
  by_cases hdvd : b.toInt ∣ a.toInt
  · left
    exact BitVec.eq_of_toInt_eq ((BitVec.toInt_srem a b).trans (Int.tmod_eq_zero_of_dvd hdvd))
  · right
    have hsign : (a.srem b).toInt.sign = a.toInt.sign := by
      rw [BitVec.toInt_srem, Int.sign_tmod, if_neg hdvd]
    rw [← Int.sign_eq_neg_one_iff_neg, hsign, Int.sign_eq_neg_one_iff_neg]

end Divisions

/-! ## The instructions -/

/-- Settles O40: all seven end in `writeShift`. -/
theorem shiftInstructions : Obligations.ShiftInstructions := by
  intro s rd rs
  refine ⟨⟨compact_of_encode rfl rfl, ?sll⟩, ⟨compact_of_encode rfl rfl, ?srl⟩, ⟨compact_of_encode rfl rfl, ?sra⟩,
    ⟨compact_of_encode rfl rfl, ?rol⟩, ⟨compact_of_encode rfl rfl, ?ror⟩,
    ⟨compact_of_encode rfl rfl, computes_of_writeShift rfl⟩, ⟨compact_of_encode rfl rfl, computes_of_writeShift rfl⟩⟩
  case sll => exact shiftUp_false _ ▸ computes_of_writeShift rfl
  case srl => exact shiftDown_false _ ▸ computes_of_writeShift rfl
  case sra => exact shiftDown_top _ ▸ computes_of_writeShift rfl
  case rol => exact shiftUp_top _ ▸ computes_of_writeShift rfl
  case ror => exact shiftDown_bottom _ ▸ computes_of_writeShift rfl

/-- Settles O41: all three end in `writeValue`; the floor division by 65536 is the model's Euclidean one. -/
theorem multiplyInstructions : Obligations.MultiplyInstructions := by
  intro s rd rs
  have hfloor := Int.fdiv_eq_ediv_of_nonneg ((s.x rd).toInt * (s.x rs).toInt) (b := 65536) (by decide)
  exact ⟨⟨compact_of_encode rfl rfl, computes_of_writeValue rfl⟩,
    ⟨compact_of_encode rfl rfl, hfloor ▸ computes_of_writeValue rfl⟩,
    ⟨compact_of_encode rfl rfl, computes_of_writeValue rfl⟩⟩

/-- Settles O42: all four end in `writeUnlessZero`. -/
theorem divideInstructions : Obligations.DivideInstructions := by
  intro s rd rs
  refine ⟨compact_of_encode rfl rfl, compact_of_encode rfl rfl, compact_of_encode rfl rfl, compact_of_encode rfl rfl,
    fun hb => ⟨?div, ?divu, ?rem, ?remu⟩, fun hb => ⟨faults_of_writeUnlessZero hb rfl,
      faults_of_writeUnlessZero hb rfl, faults_of_writeUnlessZero hb rfl, faults_of_writeUnlessZero hb rfl⟩⟩
  case div => exact signedQuotient_eq_sdiv _ _ ▸ computes_of_writeUnlessZero hb rfl
  case divu => exact ofNat_toNat_div _ _ ▸ computes_of_writeUnlessZero hb rfl
  case rem => exact signedRemainder_eq_srem _ _ ▸ computes_of_writeUnlessZero hb rfl
  case remu => exact ofNat_toNat_mod _ _ ▸ computes_of_writeUnlessZero hb rfl

/-- Settles O43: the values are those of O41 and O42, and the laws are those of the integers. -/
theorem productAndQuotientLaws : Obligations.ProductAndQuotientLaws := by
  intro s rd rs hrd
  obtain ⟨⟨-, hmul⟩, ⟨-, hmulh⟩, ⟨-, hmulhu⟩⟩ := multiplyInstructions s rd rs
  obtain ⟨-, -, -, -, hresults, -⟩ := divideInstructions s rd rs
  refine ⟨?products, fun hb => ?unsigned, fun hb => ?signed⟩
  case products =>
    obtain ⟨lo, hlo, hxlo⟩ := exists_next_of_computes hrd hmul
    obtain ⟨hs, hhs, hxhs⟩ := exists_next_of_computes hrd hmulh
    obtain ⟨hu, hhu, hxhu⟩ := exists_next_of_computes hrd hmulhu
    refine ⟨lo, hs, hu, hlo, hhs, hhu, ?_⟩
    rw [hxlo, hxhs, hxhu]
    exact ⟨mulHigh_mulLow_signed _ _, mulHigh_mulLow_unsigned _ _⟩
  case unsigned =>
    obtain ⟨-, hdivu, -, hremu⟩ := hresults hb
    obtain ⟨q, hq, hxq⟩ := exists_next_of_computes hrd hdivu
    obtain ⟨r, hr, hxr⟩ := exists_next_of_computes hrd hremu
    refine ⟨q, r, hq, hr, ?_⟩
    rw [hxq, hxr]
    exact udiv_umod_law hb
  case signed =>
    obtain ⟨hdiv, -, hrem, -⟩ := hresults hb
    obtain ⟨q, hq, hxq⟩ := exists_next_of_computes hrd hdiv
    obtain ⟨r, hr, hxr⟩ := exists_next_of_computes hrd hrem
    refine ⟨q, r, hq, hr, ?_⟩
    rw [hxq, hxr]
    refine ⟨fun hfits => ⟨sdiv_srem_law hfits, natAbs_srem_lt hb, srem_sign _ _⟩, ?_⟩
    rintro ⟨ha, hb'⟩
    rw [ha, hb']
    decide

end Sys2Proof.Proofs
end

section
/-! PROOFS. Branches, jumps and calls (42_control.md): the condition table read as the rules R203 to R218 word it, what each
condition means of the operands of a comparison, and the transfers that link. -/

namespace Sys2Proof.Proofs

open Sys2Proof.Machine Sys2Proof.Spec

/-! ## The condition table -/

/-- When a branch is taken, as its own rule words it (R203 to R218). -/
def TakenWhen (c : Cond) (f : Flags) : Prop :=
  match c with
  | .eq => f.z = true
  | .ne => f.z = false
  | .lt => f.n ≠ f.v
  | .ge => f.n = f.v
  | .ltu => f.c = false
  | .geu => f.c = true
  | .mi => f.n = true
  | .pl => f.n = false
  | .vs => f.v = true
  | .vc => f.v = false
  | .cs => f.c = true
  | .cc => f.c = false
  | .gt => f.z = false ∧ f.n = f.v
  | .le => f.z = true ∨ f.n ≠ f.v
  | .hi => f.c = true ∧ f.z = false
  | .ls => f.c = false ∨ f.z = true

/-- The sixteen rules agree with the table of R202. -/
theorem condHolds_iff_takenWhen (c : Cond) (f : Flags) : condHolds c f = true ↔ TakenWhen c f := by
  cases c <;> simp [condHolds, TakenWhen]

/-- The other condition of a complementary pair (R202). -/
def negation : Cond → Cond
  | .eq => .ne
  | .ne => .eq
  | .lt => .ge
  | .ge => .lt
  | .ltu => .geu
  | .geu => .ltu
  | .mi => .pl
  | .pl => .mi
  | .vs => .vc
  | .vc => .vs
  | .cs => .cc
  | .cc => .cs
  | .gt => .le
  | .le => .gt
  | .hi => .ls
  | .ls => .hi

theorem condHolds_negation (c : Cond) (f : Flags) : condHolds (negation c) f = !condHolds c f := by
  cases c <;> simp [condHolds, negation]

theorem takenWhen_negation (c : Cond) (f : Flags) : TakenWhen (negation c) f ↔ ¬ TakenWhen c f := by
  rw [← condHolds_iff_takenWhen, ← condHolds_iff_takenWhen, condHolds_negation, Bool.not_eq_true', Bool.not_eq_true]

/-! ## Both forms of every branch -/

section Branches

variable {s t : State} {i : Instr}

/-- The far branch's third nibble must be zero (30_encoding.md R108, R109). -/
theorem extFieldMustBeZero_farBranch (c : Cond) : ExtFieldMustBeZero fun b => word4 0xF#4 c.code b 0xB#4 :=
  extFieldMustBeZero_of_mustBeZero (make := farBranch (condOf c.code)) fun _ _ => rfl

theorem condition_condHolds (c : Cond) :
    Condition c.code (compactBranch c) (farBranch c) (fun f => condHolds c f = true) := fun s off offFar =>
  ⟨compact_of_encode (wellFormed_compactBranch c off) (encode_compactBranch c off),
    goesIf_of_branchOn (exec_compactBranch c off s),
    extended_of_encode (wellFormed_farBranch c offFar) (encode_farBranch c offFar),
    extFieldMustBeZero_farBranch c,
    goesIf_of_branchOn (exec_farBranch c offFar s)⟩

theorem condition_takenWhen (c : Cond) : Condition c.code (compactBranch c) (farBranch c) (TakenWhen c) := by
  have htable : (fun f => condHolds c f = true) = TakenWhen c := funext fun f => propext (condHolds_iff_takenWhen c f)
  exact htable ▸ condition_condHolds c

theorem goesIf_congr {p q : Prop} {there next : Word} (hpq : p ↔ q) (h : GoesIf i s p there next) :
    GoesIf i s q there next :=
  propext hpq ▸ h

/-- From a state whose flags meet the condition exactly when `p` holds, the compact branch is taken exactly then. -/
theorem goesIf_compactBranch {c : Cond} {f : Flags} {p : Prop} (hf : t.flags = f) (hp : TakenWhen c f ↔ p)
    (off : BitVec 8) : GoesIf (compactBranch c off) t p (target t.pc 2 off.toInt) (t.pc + 2#16) := by
  obtain ⟨-, hgoes, -⟩ := condition_takenWhen c t off 0#16
  exact goesIf_congr (hf ▸ hp) hgoes

theorem goesIf_farBranch {c : Cond} {f : Flags} {p : Prop} (hf : t.flags = f) (hp : TakenWhen c f ↔ p)
    (off : Word) : GoesIf (farBranch c off) t p (target t.pc 4 off.toInt) (t.pc + 4#16) := by
  obtain ⟨-, -, -, -, hgoes⟩ := condition_takenWhen c t 0#8 off
  exact goesIf_congr (hf ▸ hp) hgoes

/-- `CMP` leaves the flags of the difference (O36), which decide the branch that follows it. -/
theorem afterCompare_of_iff {c : Cond} {rel : Word → Word → Prop}
    (h : ∀ a b, TakenWhen c (subFlags a b true).2 ↔ rel a b) : AfterCompare (compactBranch c) (farBranch c) rel := by
  intro s ra rb off offFar
  obtain ⟨-, ⟨-, t, hexec, hflags, -⟩, -⟩ := comparisonInstructions s ra rb 0#16
  exact ⟨t, hexec, goesIf_compactBranch hflags (h _ _) off, goesIf_farBranch hflags (h _ _) offFar⟩

end Branches

/-! ## What the conditions mean of the operands of a comparison -/

section Compare

variable (a b : Word)

theorem takenWhen_eq_subFlags : TakenWhen .eq (subFlags a b true).2 ↔ a = b := subFlags_z_iff_eq a b

theorem takenWhen_ne_subFlags : TakenWhen .ne (subFlags a b true).2 ↔ a ≠ b :=
  (takenWhen_negation .eq _).trans (takenWhen_eq_subFlags a b).not

theorem takenWhen_lt_subFlags : TakenWhen .lt (subFlags a b true).2 ↔ a.toInt < b.toInt := subFlags_n_ne_v_iff_lt a b

theorem takenWhen_ge_subFlags : TakenWhen .ge (subFlags a b true).2 ↔ b.toInt ≤ a.toInt :=
  (takenWhen_negation .lt _).trans ((takenWhen_lt_subFlags a b).not.trans not_lt)

theorem takenWhen_geu_subFlags : TakenWhen .geu (subFlags a b true).2 ↔ b.toNat ≤ a.toNat := subFlags_c_iff_le a b

theorem takenWhen_ltu_subFlags : TakenWhen .ltu (subFlags a b true).2 ↔ a.toNat < b.toNat :=
  (takenWhen_negation .geu _).trans ((takenWhen_geu_subFlags a b).not.trans not_le)

/-- Greater is at least and not equal. -/
theorem takenWhen_gt_subFlags : TakenWhen .gt (subFlags a b true).2 ↔ b.toInt < a.toInt :=
  calc TakenWhen .gt (subFlags a b true).2
    _ ↔ TakenWhen .ne (subFlags a b true).2 ∧ TakenWhen .ge (subFlags a b true).2 := Iff.rfl
    _ ↔ a ≠ b ∧ b.toInt ≤ a.toInt := and_congr (takenWhen_ne_subFlags a b) (takenWhen_ge_subFlags a b)
    _ ↔ b.toInt < a.toInt := by
      rw [Ne, ← BitVec.toInt_inj]
      omega

theorem takenWhen_le_subFlags : TakenWhen .le (subFlags a b true).2 ↔ a.toInt ≤ b.toInt :=
  (takenWhen_negation .gt _).trans ((takenWhen_gt_subFlags a b).not.trans not_lt)

/-- Above is at or above and not equal. -/
theorem takenWhen_hi_subFlags : TakenWhen .hi (subFlags a b true).2 ↔ b.toNat < a.toNat :=
  calc TakenWhen .hi (subFlags a b true).2
    _ ↔ TakenWhen .geu (subFlags a b true).2 ∧ TakenWhen .ne (subFlags a b true).2 := Iff.rfl
    _ ↔ b.toNat ≤ a.toNat ∧ a ≠ b := and_congr (takenWhen_geu_subFlags a b) (takenWhen_ne_subFlags a b)
    _ ↔ b.toNat < a.toNat := by
      rw [Ne, ← BitVec.toNat_inj]
      omega

theorem takenWhen_ls_subFlags : TakenWhen .ls (subFlags a b true).2 ↔ a.toNat ≤ b.toNat :=
  (takenWhen_negation .hi _).trans ((takenWhen_hi_subFlags a b).not.trans not_lt)

end Compare

/-! ## Jumps and calls -/

section Transfers

variable {s : State} {i : Instr}

/-- Two fields that the extended table tests for zero leave no other values defined (30_encoding.md R108, R109). -/
theorem extFieldsMustBeZero_of_mustBeZero2 {c : Nibble} {make : Word → Instr}
    (h : ∀ a b w1, decodeExtended a b c w1 = mustBeZero2 a b (make w1)) :
    ExtFieldsMustBeZero fun a b => word4 0xF#4 a b c := by
  intro a b w1 hab
  calc decode (.extended (word4 0xF#4 a b c) w1)
    _ = decodeExtended a b c w1 := decode_extended a b c w1
    _ = mustBeZero2 a b (make w1) := h a b w1
    _ = .undefinedOpcode := if_neg (not_and_or.mpr hab)

/-- The decoder answers `J` for its own word alone, and never for a word of `JR` or `JALR` (30_encoding.md R102). -/
theorem eq_of_decode_eq_j {off o : BitVec 12} (h : decode (.compact (0x9#4 ++ off)) = .ok (.j o)) :
    o = off ∧ inRegisterJumpSlice off = false := by
  obtain ⟨hwf, henc⟩ := (readsCompact_of_not_isExtended (not_isExtended_of_decode h)).of_eq_ok h
  have hword : 0x9#4 ++ o = 0x9#4 ++ off := List.singleton_inj.mp henc
  have hoff : o = off := by simpa using congrArg low12 hword
  subst hoff
  exact ⟨rfl, by simpa [Instr.wellFormed] using hwf⟩

/-- An instruction that links and redirects `pc` leaves everything else (R223, R225). -/
theorem links_of_linkAndJump {link a : Word} (h : exec i s = .next ((s.setX regRA link).jumpTo a)) :
    Links i link a s :=
  ⟨_, h, State.x_setX_same s link (by decide), rfl, by simp, otherRegisters_setX s regRA link, fun _ _ => by simp,
    by simp [SameControl]⟩

end Transfers

/-! ## The obligations -/

/-- Settles O44 from the condition table and the meaning of the flags of a difference. -/
theorem equalityAndSignedBranches : Obligations.EqualityAndSignedBranches :=
  ⟨⟨condition_takenWhen .eq, afterCompare_of_iff takenWhen_eq_subFlags⟩,
    ⟨condition_takenWhen .ne, afterCompare_of_iff takenWhen_ne_subFlags⟩,
    ⟨condition_takenWhen .lt, afterCompare_of_iff takenWhen_lt_subFlags⟩,
    ⟨condition_takenWhen .ge, afterCompare_of_iff takenWhen_ge_subFlags⟩,
    condition_takenWhen .mi,
    condition_takenWhen .pl,
    ⟨condition_takenWhen .gt, afterCompare_of_iff takenWhen_gt_subFlags⟩,
    ⟨condition_takenWhen .le, afterCompare_of_iff takenWhen_le_subFlags⟩⟩

/-- `C` after `ADD` is the carry out, and after `SUB` it says that nothing was borrowed (R213). -/
theorem bcs_after_add_and_sub (s : State) (rd ra rb : Reg) (off : BitVec 8) : ∃ t u,
    exec (.add rd ra rb) s = .next t ∧
    GoesIf (.bcs off) t (0xFFFF < (s.x ra).toNat + (s.x rb).toNat) (target t.pc 2 off.toInt) (t.pc + 2#16) ∧
    exec (.sub rd ra rb) s = .next u ∧
    GoesIf (.bcs off) u ((s.x rb).toNat ≤ (s.x ra).toNat) (target u.pc 2 off.toInt) (u.pc + 2#16) := by
  obtain ⟨⟨-, t, hadd, -, hcarry, -⟩, -⟩ := additionInstructions s rd ra rb 0#8 0#16
  obtain ⟨⟨-, u, hsub, -, hborrow, -⟩, -⟩ := subtractionInstructions s rd ra rb
  exact ⟨t, u, hadd, goesIf_compactBranch (c := .cs) hcarry (addFlags_c_iff _ _ false) off,
    hsub, goesIf_compactBranch (c := .cs) hborrow (subFlags_c_iff_le _ _) off⟩

/-- Settles O45 from the condition table and the meaning of the carry of a difference and of a sum. -/
theorem carryAndOverflowBranches : Obligations.CarryAndOverflowBranches :=
  ⟨⟨condition_takenWhen .ltu, afterCompare_of_iff takenWhen_ltu_subFlags⟩,
    ⟨condition_takenWhen .geu, afterCompare_of_iff takenWhen_geu_subFlags⟩,
    condition_takenWhen .vs,
    condition_takenWhen .vc,
    ⟨condition_takenWhen .cs, bcs_after_add_and_sub⟩,
    condition_takenWhen .cc,
    ⟨condition_takenWhen .hi, afterCompare_of_iff takenWhen_hi_subFlags⟩,
    ⟨condition_takenWhen .ls, afterCompare_of_iff takenWhen_ls_subFlags⟩⟩

/-- Settles O46; any state with the flags in question shows that no condition reads `H`. -/
theorem branchFormsFollowTheTable : Obligations.BranchFormsFollowTheTable :=
  ⟨condition_condHolds, fun c f h => condHolds_withH c (State.reset.withFlags f) h,
    fun f => ⟨condHolds_negation .eq f, condHolds_negation .lt f, condHolds_negation .ltu f, condHolds_negation .mi f,
      condHolds_negation .vs f, condHolds_negation .cs f, condHolds_negation .gt f, condHolds_negation .hi f⟩⟩

/-- Settles O47: both forms end in `State.jumpTo`, and the decoder keeps the slice of `JR` and `JALR` apart. -/
theorem relativeJumps : Obligations.RelativeJumps := by
  intro s off offFar
  refine ⟨fun hslice => ?outside, fun hslice o hdec => ?inside, onlyFlagsAndPc_of_jumpTo rfl,
    extended_of_encode rfl rfl, extFieldsMustBeZero_of_mustBeZero2 fun _ _ _ => rfl, onlyFlagsAndPc_of_jumpTo rfl⟩
  case outside =>
    have hwf : (Instr.j off).wellFormed = true := by simpa [Instr.wellFormed, inRegisterJumpSlice] using hslice
    exact compact_of_encode hwf rfl
  case inside =>
    obtain ⟨-, hfree⟩ := eq_of_decode_eq_j hdec
    simp [inRegisterJumpSlice, hslice] at hfree

/-- Settles O48: `JR` and `JMP` end in `State.jumpTo`, `JALR` and `CALL` link first, to a target already read. -/
theorem registerAndAbsoluteTransfers : Obligations.RegisterAndAbsoluteTransfers := fun _ _ _ =>
  ⟨⟨compact_of_encode rfl rfl, onlyFlagsAndPc_of_jumpTo rfl⟩,
    ⟨compact_of_encode rfl rfl, links_of_linkAndJump rfl⟩,
    ⟨extended_of_encode rfl rfl, extFieldsMustBeZero_of_mustBeZero2 fun _ _ _ => rfl, onlyFlagsAndPc_of_jumpTo rfl⟩,
    ⟨extended_of_encode rfl rfl, extFieldsMustBeZero_of_mustBeZero2 fun _ _ _ => rfl, links_of_linkAndJump rfl⟩⟩

end Sys2Proof.Proofs
end

section
/-! PROOFS. Loads, stores and the stack (43_loadstore.md): what a word access does away from 0xFFFF and at it, and from that
each instruction, the reading back of a stored word, and the round trip through the stack. -/

namespace Sys2Proof.Proofs

open Sys2Proof.Machine Sys2Proof.Spec

/-! ## The extensions of a byte, as bytes (00_scope.md R10) -/

theorem setWidth_eq_zero_append (b : Byte) : b.setWidth 16 = 0x00#8 ++ b := by
  simp [BitVec.setWidth_eq_append]

/-- The upper byte of a sign extension is all ones exactly when bit 7 is set. -/
theorem signExtend_eq_append (b : Byte) : b.signExtend 16 = (if b.getLsbD 7 then 0xFF#8 else 0x00#8) ++ b := by
  revert b; decide

/-! ## The common ends: what they leave -/

section CommonEnds

variable {s : State} {i : Instr} {rd : Reg} {ea v w : Word}

/-- A step with an access out of range raises the range fault (60_exceptions.md R315). -/
theorem faults_of_commitOrMemFault {o : Option State} (ho : o = none) (h : exec i s = commitOrMemFault ea s o) :
    Faults i .memOutOfRange ea s := by
  subst ho
  exact h

/-- Away from 0xFFFF a word load is the write of the word in memory (R240, R245). -/
theorem computes_of_loadWord (hea : ea ≠ 0xFFFF#16) (h : exec i s = loadWord rd ea w s) :
    Computes i w rd (wordIn s ea) s.flags s :=
  computes_of_writeValue (h.trans (by rw [loadWord, Memory.readWord_of_ne s.mem hea]; rfl))

/-- At 0xFFFF a word load faults, whatever its destination (R240). -/
theorem faults_of_loadWord (hea : ea = 0xFFFF#16) (h : exec i s = loadWord rd ea w s) :
    Faults i .memOutOfRange 0xFFFF#16 s := by
  subst hea
  exact faults_of_commitOrMemFault rfl h

theorem storesByte_of_storeByte (h : exec i s = storeByte ea v w s) :
    StoresByte i w ea (v.extractLsb' 0 8) s :=
  ⟨_, h, Memory.read_write_same s.mem ea _, fun _ ha => Memory.read_write_other s.mem _ (by simpa using ha), rfl, rfl,
    fun _ _ => rfl, rfl, rfl, rfl, rfl, rfl, rfl⟩

/-- The bytes outside the two of a word store read as before (20_memory.md R64). -/
theorem otherBytes_of_writeWord {t : State} {m : Memory} (hm : s.mem.writeWord ea v = some m) (ht : t.mem = m) :
    OtherBytes s t [ea, ea + 1#16] := by
  subst ht
  obtain ⟨-, -, -, hother⟩ := writeWord_reads hm
  intro a ha
  obtain ⟨hlo, hhi⟩ : a ≠ ea ∧ a ≠ ea + 1#16 := by simpa using ha
  exact hother a hlo hhi

/-- Away from 0xFFFF a word store writes its two bytes (43_loadstore.md R243, R248). -/
theorem storesWord_of_storeWord (hea : ea ≠ 0xFFFF#16) (h : exec i s = storeWord ea v w s) :
    StoresWord i w ea v s := by
  have hm := Memory.writeWord_of_ne s.mem v hea
  obtain ⟨hlo, hhi, -, -⟩ := writeWord_reads hm
  rw [storeWord, hm, Option.map_some, commitOrMemFault_some] at h
  exact ⟨_, h, hlo, hhi, otherBytes_of_writeWord hm rfl, rfl, rfl, fun _ _ => rfl, rfl, rfl, rfl, rfl, rfl, rfl⟩

/-- At 0xFFFF a word store faults with neither byte written (R243, R248). -/
theorem faults_of_storeWord (hea : ea = 0xFFFF#16) (h : exec i s = storeWord ea v w s) :
    Faults i .memOutOfRange 0xFFFF#16 s := by
  subst hea
  exact faults_of_commitOrMemFault rfl h

end CommonEnds

/-! ## Loads and stores -/

/-- Settles O49: `LW` ends in `loadWord`, and a byte load writes the extended byte as a move writes its value. -/
theorem loadInstructions : Obligations.LoadInstructions := fun _ _ _ _ =>
  ⟨⟨compact_of_encode rfl rfl, fun hea => computes_of_loadWord hea rfl, fun hea => faults_of_loadWord hea rfl⟩,
    ⟨compact_of_encode rfl rfl, computes_of_writeValue rfl⟩,
    ⟨compact_of_encode rfl rfl, computes_of_writeValue rfl⟩,
    ⟨extended_of_encode rfl rfl, fun hea => computes_of_loadWord hea rfl, fun hea => faults_of_loadWord hea rfl⟩,
    ⟨extended_of_encode rfl rfl, computes_of_writeValue rfl⟩,
    ⟨extended_of_encode rfl rfl, computes_of_writeValue rfl⟩, rfl, rfl⟩

/-- Settles O50: the stores end in `storeWord` and `storeByte`. -/
theorem storeInstructions : Obligations.StoreInstructions := fun _ _ _ _ =>
  ⟨⟨compact_of_encode rfl rfl, fun hea => storesWord_of_storeWord hea rfl, fun hea => faults_of_storeWord hea rfl⟩,
    ⟨compact_of_encode rfl rfl, storesByte_of_storeByte rfl⟩,
    ⟨extended_of_encode rfl rfl, fun hea => storesWord_of_storeWord hea rfl, fun hea => faults_of_storeWord hea rfl⟩,
    ⟨extended_of_encode rfl rfl, storesByte_of_storeByte rfl⟩, rfl, rfl⟩

/-- The word whose two bytes stand at an address is the word there (20_memory.md R62). -/
theorem wordIn_of_bytes {s : State} {a v : Word} (hlo : s.mem.read a = v.extractLsb' 0 8)
    (hhi : s.mem.read (a + 1#16) = v.extractLsb' 8 8) : wordIn s a = v :=
  wordAt_of_bytes hlo hhi

/-- Settles O51: the loads of O49 at the bytes that O50 says the store left, with the address register unchanged. -/
theorem storeThenLoad : Obligations.StoreThenLoad := by
  intro s ra rb rc hea hrc
  obtain ⟨⟨-, hstores, -⟩, -⟩ := storeInstructions s ra rb 0#16
  obtain ⟨t, hsw, hlo, hhi, -, -, -, hregs, halt, -⟩ := hstores hea
  have hrb : t.x rb = s.x rb := x_eq_of_phys_eq halt (fun p => hregs p (by simp)) rb
  have hind : t.eaIndirect rb = s.eaIndirect rb := hrb
  have hdisp : t.eaDisplaced rb 1#16 = s.eaIndirect rb + 1#16 := congrArg (· + 1#16) hrb
  obtain ⟨⟨-, hlw, -⟩, ⟨-, hlb⟩, ⟨-, hlbu⟩, -, -, ⟨-, hlbuExt⟩, -, -⟩ := loadInstructions t rc rb 1#16
  rw [hind] at hlw hlb hlbu
  rw [hdisp, hhi, setWidth_eq_zero_append] at hlbuExt
  rw [hlo, setWidth_eq_zero_append] at hlbu
  rw [hlo, signExtend_eq_append, BitVec.getLsbD_extractLsb'] at hlb
  obtain ⟨u, hu, hxu⟩ := exists_next_of_computes hrc (hlw hea)
  obtain ⟨lo, hexecLo, hxlo⟩ := exists_next_of_computes hrc hlbu
  obtain ⟨hi, hexecHi, hxhi⟩ := exists_next_of_computes hrc hlbuExt
  obtain ⟨sx, hexecSx, hxsx⟩ := exists_next_of_computes hrc hlb
  exact ⟨t, u, lo, hi, sx, hsw, hu, hxu.trans (wordIn_of_bytes hlo hhi), hexecLo, hxlo, hexecHi, hxhi, hexecSx, hxsx⟩

/-! ## The stack -/

section Stack

variable {s : State}

/-- One more register written, among those already excepted, keeps the rest (10_state.md R24). -/
theorem otherRegisters_setX_of_mem {t : State} {indices : List Reg} {i : Reg} (h : OtherRegisters s t indices)
    (halt : t.alt = s.alt) (hi : i ∈ indices) (v : Word) : OtherRegisters s (t.setX i v) indices :=
  fun p hp => (State.phys_setX_other t v fun hne => halt ▸ hp i hi hne).trans (h p hp)

/-- What `PUSH` leaves where its store is in range (R250, R252). -/
theorem exec_push_of_ne (hsp : s.x 2#4 ≠ 0x0001#16) (ra : Reg) :
    ∃ m, s.mem.writeWord (s.x 2#4 - 2#16) (s.x ra) = some m ∧
      exec (.push ra) s = .next (({ s with mem := m }.setX 2#4 (s.x 2#4 - 2#16)).advance 2#16) := by
  obtain ⟨t, ht⟩ := Option.ne_none_iff_exists'.mp fun hnone => hsp ((push16_eq_none (s.x ra) s).mp hnone)
  obtain ⟨m, hm, rfl⟩ := push16_some ht
  exact ⟨m, hm, by simp [exec, execPush, ht]⟩

/-- What `POP` leaves where its load is in range: `SP` moves first, then `rd` is written (R251, R253). -/
theorem exec_pop_of_ne (hsp : s.x 2#4 ≠ 0xFFFF#16) (rd : Reg) :
    exec (.pop rd) s =
      .next (((s.setX 2#4 (s.x 2#4 + 2#16)).setX rd (wordIn s (s.x 2#4))).advance 2#16) := by
  obtain ⟨⟨v, t⟩, ht⟩ := Option.ne_none_iff_exists'.mp fun hnone => hsp ((pop16_eq_none s).mp hnone)
  obtain ⟨hv, rfl⟩ := pop16_some ht
  obtain rfl : wordIn s (s.x 2#4) = v := Option.some.inj ((Memory.readWord_of_ne s.mem hsp).symm.trans hv)
  simp [exec, execPop, ht]

/-- `POP` in range: the popped word, the moved `SP`, and nothing else (R251, R253). -/
theorem pop_completes (hsp : s.x 2#4 ≠ 0xFFFF#16) (rd : Reg) : ∃ t, exec (.pop rd) s = .next t ∧
    t.x rd = written rd (wordIn s (s.x 2#4)) ∧ (rd ≠ 2#4 → t.x 2#4 = s.x 2#4 + 2#16) ∧
    OtherRegisters s t [2#4, rd] ∧ OtherBytes s t [] ∧ t.flags = s.flags ∧ t.pc = s.pc + 2#16 ∧ SameControl s t := by
  refine ⟨_, exec_pop_of_ne hsp rd, x_setX_eq_written _ rd _, fun hrd => ?sp, ?registers, fun _ _ => by simp, by simp,
    by simp, by simp [SameControl]⟩
  case sp => exact (State.x_setX_other _ _ hrd.symm).trans (State.x_setX_same s _ (by decide))
  case registers =>
    have hself : OtherRegisters s s [2#4, rd] := fun _ _ => rfl
    have hmoved := otherRegisters_setX_of_mem hself rfl List.mem_cons_self (s.x 2#4 + 2#16)
    exact otherRegisters_setX_of_mem hmoved (State.setX_alt _ _ _) (by simp) (wordIn s (s.x 2#4))

theorem sub_two_add_one (a : Word) : a - 2#16 + 1#16 = a - 1#16 := by bv_omega

/-- `PUSH` in range: the two bytes stored, the moved `SP`, and nothing else (R250, R252). -/
theorem push_completes (hsp : s.x 2#4 ≠ 0x0001#16) (ra : Reg) : ∃ t, exec (.push ra) s = .next t ∧
    t.mem.read (s.x 2#4 - 2#16) = (s.x ra).extractLsb' 0 8 ∧ t.mem.read (s.x 2#4 - 1#16) = (s.x ra).extractLsb' 8 8 ∧
    OtherBytes s t [s.x 2#4 - 2#16, s.x 2#4 - 1#16] ∧ t.x 2#4 = s.x 2#4 - 2#16 ∧
    OtherRegisters s t [2#4] ∧ t.flags = s.flags ∧ t.pc = s.pc + 2#16 ∧ SameControl s t := by
  obtain ⟨m, hm, hexec⟩ := exec_push_of_ne hsp ra
  obtain ⟨hlo, hhi, -, -⟩ := writeWord_reads hm
  refine ⟨_, hexec, by simpa using hlo, ?high, ?bytes, State.x_setX_same _ _ (by decide), ?registers, by simp, by simp,
    by simp [SameControl]⟩
  case high => simpa [sub_two_add_one] using hhi
  case bytes => exact sub_two_add_one _ ▸ otherBytes_of_writeWord hm (by simp)
  case registers => exact otherRegisters_setX { s with mem := m } 2#4 (s.x 2#4 - 2#16)

/-- `POP` of the word `v` that stands two bytes below an old `SP` gives `v` and that `SP` back (R254 (e)). -/
theorem pop_restores {t : State} {rb : Reg} {v : Word} (hrb : rb ≠ 2#4) (hsp : s.x 2#4 ≠ 0x0001#16)
    (ht : t.x 2#4 = s.x 2#4 - 2#16) (hword : wordIn t (s.x 2#4 - 2#16) = v) :
    ∃ u, exec (.pop rb) t = .next u ∧ u.x rb = written rb v ∧ u.x 2#4 = s.x 2#4 := by
  have htop : t.x 2#4 ≠ 0xFFFF#16 := ht ▸ mt (sub_two_eq_top _).mp hsp
  obtain ⟨u, hexec, hxrb, hxsp, -⟩ := pop_completes htop rb
  rw [ht] at hxrb hxsp
  exact ⟨u, hexec, hword ▸ hxrb, (hxsp hrb).trans (BitVec.sub_add_cancel _ _)⟩

end Stack

/-- A compact word that the decoder answers through `mustBeZero` is undefined for every other value of the field
(30_encoding.md R109). -/
theorem fieldMustBeZero_of_mustBeZero {w : Nibble → Word} {i : Instr}
    (h : ∀ a, decode (.compact (w a)) = mustBeZero a i) : FieldMustBeZero w :=
  fun a ha => (h a).trans (if_neg ha)

/-- Settles O52: the push and the pop are what `exec_push_of_ne` and `pop_completes` say, and the round trip is a pop of
the word just stored. -/
theorem pushAndPop : Obligations.PushAndPop := by
  intro s ra rb
  refine ⟨compact_of_encode rfl rfl, fieldMustBeZero_of_mustBeZero (i := .push ra) fun a => decode_misc a ra 0x7#4,
    compact_of_encode rfl rfl, fieldMustBeZero_of_mustBeZero (i := .pop rb) fun b => decode_misc rb b 0x8#4,
    fun hsp => ?push, fun hsp => ?pushFault, fun hsp => pop_completes hsp rb, fun hsp => ?popFault⟩
  case push =>
    obtain ⟨t, hexec, hlo, hhi, hother, hmoved, hregs, hflags, hpc, hcontrol⟩ := push_completes hsp ra
    have hword : wordIn t (s.x 2#4 - 2#16) = s.x ra := wordIn_of_bytes hlo (sub_two_add_one _ ▸ hhi)
    exact ⟨t, hexec, hlo, hhi, hother, hmoved, hregs, hflags, hpc, hcontrol,
      fun _ hrb => pop_restores hrb hsp hmoved hword⟩
  case pushFault =>
    exact faults_of_commitOrMemFault (Option.map_eq_none_iff.mpr ((push16_eq_none _ s).mpr hsp)) rfl
  case popFault =>
    exact faults_of_commitOrMemFault (Option.map_eq_none_iff.mpr ((pop16_eq_none s).mpr hsp)) rfl

end Sys2Proof.Proofs
end

section
/-! PROOFS. Block operations (44_block.md): the common end of a copy or fill, memory as one byte after the other leaves it,
where a search stops, and from these the six instructions. -/

namespace Sys2Proof.Proofs

open Sys2Proof.Machine Sys2Proof.Spec

/-! ## The common end: what it leaves -/

section CommonEnd

variable {s t : State} {i : Instr} {regs : List Reg}

/-- Two fields that the compact table tests for zero leave no other values defined (30_encoding.md R109). -/
theorem fieldsMustBeZero_of_mustBeZero2 {w : Nibble → Nibble → Word}
    (h : ∀ a b, decode (.compact (w a b)) = mustBeZero2 a b i) : FieldsMustBeZero w :=
  fun a b hab => (h a b).trans (if_neg (not_and_or.mpr hab))

/-! The flags written and `pc` advanced at the end are in neither of these two frames. -/

theorem otherRegisters_of_blockFrame (hf : BlockFrame regs s t) (h0 : 0#4 ∉ regs) (f : Flags) (w : Word) :
    OtherRegisters s ((t.withFlags f).advance w) regs :=
  fun p hp => hf.phys p fun j hj => hp j hj fun hj0 => h0 (hj0 ▸ hj)

theorem sameControl_of_blockFrame (hf : BlockFrame regs s t) (f : Flags) (w : Word) :
    SameControl s ((t.withFlags f).advance w) :=
  ⟨hf.alt, hf.iv, hf.ie, hf.ip, hf.run, hf.env⟩

/-- The end of a copy or fill writes `Z` and moves `pc`; all else is as the elements left it (44_block.md R260). -/
theorem finishBlock_completes (hf : BlockFrame regs s t) (h0 : 0#4 ∉ regs) (h : exec i s = finishBlock t) :
    ∃ u, exec i s = .next u ∧ u.mem = t.mem ∧ (∀ j, u.x j = t.x j) ∧
      u.flags = { s.flags with z := decide (t.x 4#4 = 0x0000#16) } ∧ u.pc = s.pc + 2#16 ∧
      OtherRegisters s u regs ∧ SameControl s u :=
  ⟨_, h, rfl, fun _ => rfl, hf.flags ▸ rfl, hf.pc ▸ rfl, otherRegisters_of_blockFrame hf h0 _ _,
    sameControl_of_blockFrame hf _ _⟩

/-- With the count used up and no element taken, only `Z` and `pc` change (R261). -/
theorem onlyFlagsAndPc_of_finishBlock (h4 : s.x 4#4 = 0x0000#16) (h : exec i s = finishBlock s) :
    OnlyFlagsAndPc i { s.flags with z := true } (s.pc + 2#16) s := by
  obtain ⟨u, hexec, hmem, -, hflags, hpc, hregs, hcontrol⟩ :=
    finishBlock_completes (BlockFrame.refl [] s) List.not_mem_nil h
  rw [h4] at hflags
  exact ⟨u, hexec, hflags, hpc, hregs, fun a _ => by rw [hmem], hcontrol⟩

theorem copyOnce_of_zero (h4 : s.x 4#4 = 0x0000#16) (dir : Word) : copyOnce dir s = s := if_pos h4

theorem copyOnce_of_ne_zero (h4 : s.x 4#4 ≠ 0x0000#16) (dir : Word) : copyOnce dir s = copyElement dir s := if_neg h4

theorem repeatElement_of_zero (h4 : s.x 4#4 = 0x0000#16) (element : State → State) :
    repeatElement element (s.x 4#4).toNat s = s := by
  rw [h4]; rfl

theorem execCpir_of_zero (h4 : s.x 4#4 = 0x0000#16) :
    exec .cpir s = writeFlags { s.flags with z := true, c := false } 2#16 s := by
  have hloop : searchLoop (s.x regCount).toNat s = (s, false) := by rw [h4]; rfl
  have hcount : (s.x regCount == 0#16) = true := by rw [h4]; rfl
  calc exec .cpir s
    _ = execCpir s := rfl
    _ = writeFlags (s.flags.withZC true false) 2#16 s := by rw [execCpir, hloop, hcount]; rfl

end CommonEnd

/-! ## Count zero -/

/-- Settles O27: no element is taken, so each operation is its end alone. -/
theorem zeroCountTouchesNothing : Obligations.ZeroCountTouchesNothing := fun _ h4 =>
  ⟨onlyFlagsAndPc_of_finishBlock h4 (congrArg finishBlock (copyOnce_of_zero h4 _)),
    onlyFlagsAndPc_of_finishBlock h4 (congrArg finishBlock (copyOnce_of_zero h4 _)),
    onlyFlagsAndPc_of_finishBlock h4 (congrArg finishBlock (repeatElement_of_zero h4 _)),
    onlyFlagsAndPc_of_finishBlock h4 (congrArg finishBlock (repeatElement_of_zero h4 _)),
    onlyFlagsAndPc_of_finishBlock h4 (congrArg finishBlock (repeatElement_of_zero h4 _)),
    onlyFlagsAndPc_of_writeFlags (execCpir_of_zero h4)⟩

/-! ## Single copies -/

/-- One element and the common end (R263, R264). -/
theorem copiesOne_of_finishBlock {s : State} {i : Instr} {dir : Word} (h4 : s.x 4#4 ≠ 0x0000#16)
    (h : exec i s = finishBlock (copyOnce dir s)) : CopiesOne i dir s := by
  rw [copyOnce_of_ne_zero h4] at h
  obtain ⟨hmem, hcount, hsource, hdest, hf⟩ := copyElement_spec dir s
  obtain ⟨u, hexec, humem, hux, hflags, hpc, hregs, hcontrol⟩ := finishBlock_completes hf (by decide) h
  have hwrite := humem.trans hmem
  refine ⟨u, hexec, ?copied, ?kept, (hux _).trans hcount, (hux _).trans hsource, (hux _).trans hdest,
    hcount ▸ hflags, hpc, hregs, hcontrol⟩
  case copied => rw [hwrite, Memory.read_write_same]
  case kept =>
    intro a ha
    rw [hwrite, Memory.read_write_other s.mem _ (List.ne_of_not_mem_cons ha)]

/-- Settles O53: one element each, and no element at count zero as O27 says. -/
theorem singleCopies : Obligations.SingleCopies := by
  intro s
  refine ⟨compact_of_encode rfl rfl, fieldsMustBeZero_of_mustBeZero2 (i := .ldi) fun a b => decode_misc a b 0xA#4,
    compact_of_encode rfl rfl, fieldsMustBeZero_of_mustBeZero2 (i := .ldd) fun a b => decode_misc a b 0xB#4,
    fun h4 => ⟨copiesOne_of_finishBlock h4 rfl, copiesOne_of_finishBlock h4 rfl⟩, fun h4 => ?zero⟩
  case zero =>
    obtain ⟨hldi, hldd, -⟩ := zeroCountTouchesNothing s h4
    exact ⟨hldi, hldd⟩

/-! ## Memory after a block -/

section BlockMemory

variable {dir a : Word} {v : Byte}

theorem read_write_eq_update (m : Memory) (a : Word) (v : Byte) : (m.write a v).read = Function.update m.read a v := by
  funext b
  rw [Memory.read_write, Function.update_apply]

/-- The addresses of a block are its start moved by `dir` up to `n - 1` times. -/
theorem mem_addresses_iff {n : Nat} : ∀ {b : Word},
    a ∈ addresses dir n b ↔ ∃ k < n, a = b + BitVec.ofNat 16 k * dir := by
  induction n with
  | zero => simp [addresses]
  | succ n ih =>
    intro b
    rw [addresses, List.mem_cons, ih, Nat.exists_lt_succ_left]
    simp [stepped_succ]

/-- The list memory of the model after a copy reads as the copied contents do (R262). -/
theorem read_copyMemory (n : Nat) : ∀ (src dst : Word) (m : Memory),
    (copyMemory dir n src dst m).read = copied dir n src dst m.read := by
  induction n with
  | zero => exact fun _ _ _ => rfl
  | succ n ih => intro src dst m; rw [copyMemory, ih, read_write_eq_update]; rfl

theorem copied_of_not_mem {n : Nat} : ∀ {src dst : Word} {m : Word → Byte}, a ∉ addresses dir n dst →
    copied dir n src dst m a = m a := by
  induction n with
  | zero => exact fun _ => rfl
  | succ n ih =>
    intro src dst m ha
    rw [addresses, List.mem_cons, not_or] at ha
    obtain ⟨hne, hrest⟩ := ha
    rw [copied, ih hrest, Function.update_of_ne hne]

/-- A copy between blocks that share no address copies exactly (R269 (a)): no read meets an earlier write. -/
theorem copied_of_disjoint {n : Nat} : ∀ {src dst : Word} {m : Word → Byte},
    (∀ j k, j < n → k < n → src + BitVec.ofNat 16 j * dir ≠ dst + BitVec.ofNat 16 k * dir) → ∀ k, k < n →
      copied dir n src dst m (dst + BitVec.ofNat 16 k * dir) = m (src + BitVec.ofNat 16 k * dir) := by
  induction n with
  | zero => intro src dst m _ k hk; exact absurd hk (Nat.not_lt_zero k)
  | succ n ih =>
    intro src dst m hdisj k hk
    have hrest : ∀ j k, j < n → k < n → src + dir + BitVec.ofNat 16 j * dir ≠ dst + dir + BitVec.ofNat 16 k * dir := by
      intro j k hj hk
      rw [stepped_succ, stepped_succ]
      exact hdisj (j + 1) (k + 1) (by omega) (by omega)
    rw [copied]
    by_cases hmem : dst + BitVec.ofNat 16 k * dir ∈ addresses dir n (dst + dir)
    · -- the byte is written again later, from the same offset of the source
      obtain ⟨i, hi, heq⟩ := mem_addresses_iff.mp hmem
      have hsrc : src + dir + BitVec.ofNat 16 i * dir = src + BitVec.ofNat 16 k * dir := by
        rw [BitVec.add_assoc] at heq ⊢
        rw [(BitVec.add_right_inj dst).mp heq]
      have hne : src + BitVec.ofNat 16 k * dir ≠ dst := by simpa using hdisj k 0 hk (by omega)
      rw [heq, ih hrest i hi, hsrc, Function.update_of_ne hne]
    · have hk0 : k = 0 := by
        by_contra hne
        obtain ⟨i, rfl⟩ := Nat.exists_eq_succ_of_ne_zero hne
        exact hmem (mem_addresses_iff.mpr ⟨i, by omega, (stepped_succ dir dst i).symm⟩)
      subst hk0
      rw [copied_of_not_mem hmem]
      simp

/-- The bytes of a filled block hold the value, every other byte what it held (R268). -/
theorem read_fillMemory (n : Nat) : ∀ (dst : Word) (m : Memory),
    (fillMemory v n dst m).read a = if a ∈ addresses 1#16 n dst then v else m.read a := by
  induction n with
  | zero => intro dst m; simp [fillMemory, addresses]
  | succ n ih =>
    intro dst m
    rw [fillMemory, ih, Memory.read_write, addresses]
    by_cases hrest : a ∈ addresses 1#16 n (dst + 1#16) <;> simp [hrest]

end BlockMemory

/-! ## Repeated copies and fills -/

section Repeated

variable {s : State} {i : Instr} {dir : Word}

/-- As many elements as the count says use the count up (R262). -/
theorem repeatElement_copy_count (dir : Word) (s : State) :
    (repeatElement (copyElement dir) (s.x 4#4).toNat s).x 4#4 = 0x0000#16 := by
  obtain ⟨-, hcount, -⟩ := repeatElement_copy dir (s.x 4#4).toNat s
  rw [hcount, BitVec.ofNat_toNat, BitVec.setWidth_eq, BitVec.sub_self]

theorem copiesBlock_of_finishBlock (h : exec i s = finishBlock (repeatElement (copyElement dir) (s.x 4#4).toNat s)) :
    CopiesBlock i dir s := by
  obtain ⟨hmem, -, hsource, hdest, hf⟩ := repeatElement_copy dir (s.x 4#4).toNat s
  have hcount := repeatElement_copy_count dir s
  rw [BitVec.ofNat_toNat, BitVec.setWidth_eq] at hsource hdest
  obtain ⟨u, hexec, humem, hux, hflags, hpc, hregs, hcontrol⟩ := finishBlock_completes hf (by decide) h
  have hread : u.mem.read = copied dir (s.x 4#4).toNat (s.x 5#4) (s.x 6#4) s.mem.read := by
    rw [humem, hmem, read_copyMemory]
  rw [hcount] at hflags
  exact ⟨u, hexec, congrFun hread, fun a ha => (congrFun hread a).trans (copied_of_not_mem ha), (hux _).trans hcount,
    (hux _).trans hsource, (hux _).trans hdest, hflags, hpc, hregs, hcontrol⟩

/-- Settles O54: as many elements as the count says, and the common end. -/
theorem repeatedCopies : Obligations.RepeatedCopies := fun _ =>
  ⟨compact_of_encode rfl rfl, fieldsMustBeZero_of_mustBeZero2 (i := .ldir) fun a b => decode_misc a b 0xC#4,
    compact_of_encode rfl rfl, fieldsMustBeZero_of_mustBeZero2 (i := .lddr) fun a b => decode_misc a b 0xD#4,
    copiesBlock_of_finishBlock rfl, copiesBlock_of_finishBlock rfl⟩

/-- Settles O56: as many fill elements as the count says, and the common end. -/
theorem fillBlock : Obligations.FillBlock := by
  intro s
  refine ⟨compact_of_encode rfl rfl, fieldsMustBeZero_of_mustBeZero2 (i := .fill) fun a b => decode_misc a b 0xE#4, ?_⟩
  obtain ⟨hmem, hcount, hdest, hf⟩ := repeatElement_fill (s.x 4#4).toNat s
  rw [BitVec.ofNat_toNat, BitVec.setWidth_eq] at hcount hdest
  rw [BitVec.sub_self] at hcount
  obtain ⟨u, hexec, humem, hux, hflags, hpc, hregs, hcontrol⟩ :=
    finishBlock_completes (i := .fill) hf (by decide) rfl
  have hread : ∀ a, u.mem.read a =
      if a ∈ addresses 1#16 (s.x 4#4).toNat (s.x 6#4) then lowByte (s.x 7#4) else s.mem.read a := by
    intro a; rw [humem, hmem, read_fillMemory]
  rw [hcount] at hflags
  exact ⟨u, hexec, fun a ha => (hread a).trans (if_pos ha), fun a ha => (hread a).trans (if_neg ha),
    (hux _).trans hcount, (hux _).trans hdest, hflags, hpc, hregs, hcontrol⟩

end Repeated

/-! ## The search -/

section Search

variable {s : State}

/-- The byte `k` places up from the source pointer is the key (R267). -/
def KeyAt (s : State) (k : Nat) : Prop := s.mem.read (s.x 5#4 + BitVec.ofNat 16 k) = (s.x 7#4).extractLsb' 0 8

theorem stepped_up_succ (a : Word) (n : Nat) : a + 1#16 + BitVec.ofNat 16 n = a + BitVec.ofNat 16 (n + 1) := by
  simpa using stepped_succ 1#16 a n

theorem keyAt_searchAdvance (s : State) (k : Nat) : KeyAt (searchAdvance s) k ↔ KeyAt s (k + 1) := by
  obtain ⟨hmem, -, hsource, hf⟩ := searchAdvance_spec s
  rw [KeyAt, KeyAt, hmem, hsource, hf.x (by decide), stepped_up_succ]

/-- Where the search stops: one past the first byte that is the key, or where the count is used up (R267). -/
theorem searchLoop_cases (n : Nat) : ∀ s : State,
    (∃ k < n, KeyAt s k ∧ (∀ j < k, ¬ KeyAt s j) ∧ searchLoop n s = (repeatElement searchAdvance (k + 1) s, true)) ∨
    ((∀ j < n, ¬ KeyAt s j) ∧ searchLoop n s = (repeatElement searchAdvance n s, false)) := by
  induction n with
  | zero => exact fun s => .inr ⟨fun j hj => absurd hj (Nat.not_lt_zero j), rfl⟩
  | succ n ih =>
    intro s
    have hkey : KeyAt s 0 ↔ s.mem.read (s.x regSource) = lowByte (s.x regKey) := by simp [KeyAt, lowByte]
    by_cases h0 : KeyAt s 0
    · exact .inl ⟨0, Nat.succ_pos n, h0, fun j hj => absurd hj (Nat.not_lt_zero j), if_pos (hkey.mp h0)⟩
    have hloop : searchLoop (n + 1) s = searchLoop n (searchAdvance s) := if_neg (mt hkey.mpr h0)
    have hshift : ∀ m, (∀ j < m, ¬ KeyAt (searchAdvance s) j) → ∀ j < m + 1, ¬ KeyAt s j := fun m hm =>
      Nat.forall_lt_succ_left.mpr ⟨h0, fun j hj => mt (keyAt_searchAdvance s j).mpr (hm j hj)⟩
    rcases ih (searchAdvance s) with ⟨k, hk, hfound, hbefore, heq⟩ | ⟨hnone, heq⟩
    · exact .inl ⟨k + 1, Nat.succ_lt_succ hk, (keyAt_searchAdvance s k).mp hfound, hshift k hbefore, hloop.trans heq⟩
    · exact .inr ⟨hshift n hnone, hloop.trans heq⟩

/-- All that `n` searched elements do to the two registers of the search. -/
theorem repeatElement_search (n : Nat) : ∀ s : State,
    (repeatElement searchAdvance n s).x 4#4 = s.x 4#4 - BitVec.ofNat 16 n ∧
    (repeatElement searchAdvance n s).x 5#4 = s.x 5#4 + BitVec.ofNat 16 n := by
  induction n with
  | zero => intro s; simp [repeatElement]
  | succ n ih =>
    intro s
    obtain ⟨-, hcount, hsource, -⟩ := searchAdvance_spec s
    obtain ⟨icount, isource⟩ := ih (searchAdvance s)
    exact ⟨by rw [repeatElement, icount, hcount, counted_succ], by rw [repeatElement, isource, hsource, stepped_up_succ]⟩

/-- The first place of the key is the only one with no key before it. -/
theorem eq_of_first_keyAt {j k : Nat} (hj : KeyAt s j) (hjmin : ∀ l < j, ¬ KeyAt s l) (hk : KeyAt s k)
    (hkmin : ∀ l < k, ¬ KeyAt s l) : j = k :=
  le_antisymm (not_lt.mp fun hlt => hjmin k hlt hk) (not_lt.mp fun hlt => hkmin j hlt hj)

/-- Settles O57: `searchLoop_cases` says where the search stops, and the end writes `Z` and `C` alone. -/
theorem searchBlock : Obligations.SearchBlock := by
  intro s
  refine ⟨compact_of_encode rfl rfl, fieldsMustBeZero_of_mustBeZero2 (i := .cpir) fun a b => decode_misc a b 0xF#4, ?_⟩
  obtain ⟨hmem, hf⟩ := searchLoop_frame (s.x 4#4).toNat s
  have hcases := searchLoop_cases (s.x 4#4).toNat s
  refine ⟨_, rfl, fun k hk hkey hfirst => ?found, fun hnone => ?missed, rfl, (congrArg Flags.n hf.flags :),
    (congrArg Flags.v hf.flags :), (congrArg Flags.h hf.flags :), congrArg (· + 2#16) hf.pc,
    otherRegisters_of_blockFrame hf (by decide) _ _, fun a _ => congrArg (Memory.read · a) hmem,
    sameControl_of_blockFrame hf _ _⟩
  case found =>
    rcases hcases with ⟨k', -, hkey', hfirst', heq⟩ | ⟨hnone, -⟩
    · obtain rfl := eq_of_first_keyAt hkey hfirst hkey' hfirst'
      obtain ⟨hcount, hsource⟩ := repeatElement_search (k + 1) s
      simp only [heq]
      exact ⟨hcount, hsource, rfl⟩
    · exact absurd hkey (hnone k hk)
  case missed =>
    rcases hcases with ⟨k, hk, hkey, -⟩ | ⟨-, heq⟩
    · exact absurd hkey (hnone k hk)
    · obtain ⟨hcount, hsource⟩ := repeatElement_search (s.x 4#4).toNat s
      rw [BitVec.ofNat_toNat, BitVec.setWidth_eq] at hcount hsource
      simp only [heq]
      exact ⟨hcount.trans (BitVec.sub_self _), hsource, rfl⟩

end Search

/-! ## Laws of block operations (R269) -/

section Laws

variable {s : State} {i : Instr} {dir : Word}

/-! An element neither reads nor writes the flags and `pc`. -/

theorem setX_withFlags_jumpTo (s : State) (f : Flags) (p : Word) (i : Reg) (v : Word) :
    ((s.withFlags f).jumpTo p).setX i v = ((s.setX i v).withFlags f).jumpTo p := by
  unfold State.setX
  split
  · rfl
  · rw [State.jumpTo_alt, State.withFlags_alt]
    cases physOf s.alt i <;> rfl

theorem copyElement_withFlags_jumpTo (dir : Word) (s : State) (f : Flags) (p : Word) :
    copyElement dir ((s.withFlags f).jumpTo p) = ((copyElement dir s).withFlags f).jumpTo p := by
  simp only [copyElement, ← setX_withFlags_jumpTo]
  rfl

theorem repeatElement_copy_withFlags_jumpTo (dir : Word) (n : Nat) : ∀ (s : State) (f : Flags) (p : Word),
    repeatElement (copyElement dir) n ((s.withFlags f).jumpTo p) =
      ((repeatElement (copyElement dir) n s).withFlags f).jumpTo p := by
  induction n with
  | zero => exact fun _ _ _ => rfl
  | succ n ih => intro s f p; rw [repeatElement, copyElement_withFlags_jumpTo, ih]; rfl

/-- One single copy: an element, `Z` from the new count, and the advance (R263, R264). -/
theorem exec_single_of_ne_zero (h : ∀ t, exec i t = finishBlock (copyOnce dir t)) (h4 : s.x 4#4 ≠ 0x0000#16) :
    exec i s = .next (((copyElement dir s).withFlags (s.flags.withZ (s.x 4#4 - 1#16 == 0#16))).jumpTo (s.pc + 2#16)) := by
  obtain ⟨-, hcount, -, -, hf⟩ := copyElement_spec dir s
  rw [h, copyOnce_of_ne_zero h4, finishBlock, hcount, hf.flags, State.advance, State.nextPc, State.withFlags_pc, hf.pc]
  rfl

theorem toNat_sub_one {c : Word} {n : Nat} (h : c.toNat = n + 1) : (c - 1#16).toNat = n := by bv_omega

/-- Single copies as many times as the count says: the elements of the repeated copy, `Z` set, `pc` wherever it got to. -/
theorem times_single_copy (h : ∀ t, exec i t = finishBlock (copyOnce dir t)) (n : Nat) : ∀ s : State,
    (s.x 4#4).toNat = n + 1 → ∃ p, times i (n + 1) s =
      .next (((repeatElement (copyElement dir) (n + 1) s).withFlags (s.flags.withZ true)).jumpTo p) := by
  induction n with
  | zero =>
    intro s hn
    have h4 : s.x 4#4 = 1#16 := BitVec.eq_of_toNat_eq hn
    have hexec := exec_single_of_ne_zero h (s := s) (by rw [h4]; decide)
    rw [h4] at hexec
    exact ⟨_, by rw [times, hexec]; rfl⟩
  | succ n ih =>
    intro s hn
    have hexec := exec_single_of_ne_zero h (s := s) (by rintro h4; simp [h4] at hn)
    obtain ⟨-, hcount, -⟩ := copyElement_spec dir s
    obtain ⟨p, htimes⟩ := ih (((copyElement dir s).withFlags (s.flags.withZ (s.x 4#4 - 1#16 == 0#16))).jumpTo
      (s.pc + 2#16)) ((congrArg BitVec.toNat hcount).trans (toNat_sub_one hn))
    refine ⟨p, ?_⟩
    rw [times, hexec, repeatElement]
    simp only [htimes, repeatElement_copy_withFlags_jumpTo]
    rfl

/-- A repeated copy is the single copy as many times as the count says, `pc` apart (R262, R269 (c)). -/
theorem repeated_eq_times_single {j : Instr} (h : ∀ t, exec i t = finishBlock (copyOnce dir t))
    (hj : exec j s = finishBlock (repeatElement (copyElement dir) (s.x 4#4).toNat s)) (h4 : s.x 4#4 ≠ 0x0000#16) :
    ∃ u, times i (s.x 4#4).toNat s = .next u ∧ exec j s = .next { u with pc := s.pc + 2#16 } := by
  obtain ⟨n, hn⟩ := Nat.exists_eq_succ_of_ne_zero (toNat_ne_zero_of_ne h4)
  obtain ⟨p, htimes⟩ := times_single_copy h n s hn
  obtain ⟨-, -, -, -, hf⟩ := repeatElement_copy dir (s.x 4#4).toNat s
  refine ⟨_, (congrArg (times i · s) hn).trans htimes, ?_⟩
  rw [hj, finishBlock, repeatElement_copy_count, hf.flags, State.advance, State.nextPc, State.withFlags_pc, hf.pc, hn]
  rfl

theorem sub_ofNat_eq (a : Word) (k : Nat) : a - BitVec.ofNat 16 k = a + BitVec.ofNat 16 k * 0xFFFF#16 := by
  rw [show 0xFFFF#16 = -1#16 from rfl, BitVec.mul_neg, BitVec.mul_one, BitVec.sub_eq_add_neg]

/-! The count after each kind of operation is at most the count before (R269 (d)). -/

theorem count_sub_one_le {c : Word} (h4 : c ≠ 0x0000#16) : (c - 1#16).toNat ≤ c.toNat := by
  obtain ⟨n, hn⟩ := Nat.exists_eq_succ_of_ne_zero (toNat_ne_zero_of_ne h4)
  rw [toNat_sub_one hn, hn]
  exact Nat.le_succ n

theorem count_le_of_copiesOne (hone : s.x 4#4 ≠ 0x0000#16 → CopiesOne i dir s)
    (hzero : s.x 4#4 = 0x0000#16 → OnlyFlagsAndPc i { s.flags with z := true } (s.pc + 2#16) s) :
    ∃ t, exec i s = .next t ∧ (t.x 4#4).toNat ≤ (s.x 4#4).toNat := by
  by_cases h4 : s.x 4#4 = 0x0000#16
  · obtain ⟨t, hexec, -, -, hregs, -, halt, -⟩ := hzero h4
    exact ⟨t, hexec, (congrArg BitVec.toNat (x_eq_of_phys_eq halt (fun p => hregs p (by simp)) _)).le⟩
  · obtain ⟨t, hexec, -, -, hcount, -⟩ := hone h4
    exact ⟨t, hexec, hcount ▸ count_sub_one_le h4⟩

theorem count_le_of_copiesBlock (h : CopiesBlock i dir s) :
    ∃ t, exec i s = .next t ∧ (t.x 4#4).toNat ≤ (s.x 4#4).toNat := by
  obtain ⟨t, hexec, -, -, hcount, -⟩ := h
  exact ⟨t, hexec, hcount ▸ Nat.zero_le _⟩

theorem searchLoop_count_le (s : State) :
    ((searchLoop (s.x 4#4).toNat s).1.x 4#4).toNat ≤ (s.x 4#4).toNat := by
  rcases searchLoop_cases (s.x 4#4).toNat s with ⟨k, hk, -, -, heq⟩ | ⟨-, heq⟩
  · obtain ⟨hcount, -⟩ := repeatElement_search (k + 1) s
    rw [heq, hcount]
    bv_omega
  · obtain ⟨hcount, -⟩ := repeatElement_search (s.x 4#4).toNat s
    simp [heq, hcount]

/-- Settles O55: the copied contents of disjoint blocks, the elements of both forms, and the counts of O53, O54, O56 and
of the search. -/
theorem blockCopyLaws : Obligations.BlockCopyLaws := by
  intro s
  obtain ⟨-, -, -, -, hldir, hlddr⟩ := repeatedCopies s
  refine ⟨fun hdisj => ?up, fun hdisj => ?down, fun h4 => ?times, ?count⟩
  case up =>
    obtain ⟨t, hexec, hread, -⟩ := hldir
    have hcopied := copied_of_disjoint (dir := 0x0001#16) (m := s.mem.read) (by simpa using hdisj)
    exact ⟨t, hexec, fun k hk => (hread _).trans (by simpa using hcopied k hk)⟩
  case down =>
    obtain ⟨t, hexec, hread, -⟩ := hlddr
    simp only [sub_ofNat_eq] at hdisj ⊢
    exact ⟨t, hexec, fun k hk => (hread _).trans (copied_of_disjoint hdisj k hk)⟩
  case times =>
    obtain ⟨u, hu, hup⟩ := repeated_eq_times_single (i := .ldi) (j := .ldir) (fun _ => rfl) rfl h4
    obtain ⟨v, hv, hdown⟩ := repeated_eq_times_single (i := .ldd) (j := .lddr) (fun _ => rfl) rfl h4
    exact ⟨u, v, hu, hup, hv, hdown⟩
  case count =>
    obtain ⟨-, -, -, -, hone, hzero⟩ := singleCopies s
    obtain ⟨-, -, t, hfill, -, -, hcount, -⟩ := fillBlock s
    simp only [List.forall_mem_cons]
    exact ⟨count_le_of_copiesOne (fun h4 => (hone h4).left) fun h4 => (hzero h4).left,
      count_le_of_copiesOne (fun h4 => (hone h4).right) fun h4 => (hzero h4).right,
      count_le_of_copiesBlock hldir, count_le_of_copiesBlock hlddr, ⟨t, hfill, hcount ▸ Nat.zero_le _⟩,
      ⟨_, rfl, searchLoop_count_le s⟩, List.forall_mem_nil _⟩

end Laws

end Sys2Proof.Proofs
end

section
/-! PROOFS. Port input and output (45_io.md): a port access above 255 faults, to an unmapped port it is a plain move or
nothing, to a mapped port it is one handler call. -/

namespace Sys2Proof.Proofs

open Sys2Proof.Machine Sys2Proof.Spec

/-! ## The port accesses (20_memory.md R69 to R72) -/

section Accesses

variable {s : State} {p : Word}

/-- The answer is the next one listed, else the free value (R72, log 7). -/
theorem answer_eq_headD (e : Env) : e.answer = e.answers.headD (Config.portByte e.reads) := by
  rcases e with ⟨_, _, _ | ⟨b, rest⟩, _, _, _⟩ <;> rfl

theorem portRead_of_unmapped (hp : p.toNat ≤ 255) (hmap : p.extractLsb' 0 8 ∉ s.env.readPorts) :
    portRead p s = some (0x00#8, s) := by
  rw [portRead_of_le hp, BitVec.setWidth_eq_extractLsb' (by decide), if_neg hmap]

theorem portRead_of_mapped (hp : p.toNat ≤ 255) (hmap : p.extractLsb' 0 8 ∈ s.env.readPorts) :
    portRead p s = some (s.env.answer, s.callReadHandler (p.extractLsb' 0 8)) := by
  rw [portRead_of_le hp, BitVec.setWidth_eq_extractLsb' (by decide), if_pos hmap]

theorem portWrite_of_unmapped (hp : p.toNat ≤ 255) (hmap : p.extractLsb' 0 8 ∉ s.env.writePorts) (b : Byte) :
    portWrite p b s = some s := by
  rw [portWrite_of_le hp, BitVec.setWidth_eq_extractLsb' (by decide), if_neg hmap]

theorem portWrite_of_mapped (hp : p.toNat ≤ 255) (hmap : p.extractLsb' 0 8 ∈ s.env.writePorts) (b : Byte) :
    portWrite p b s = some (s.emit (.portWrite (p.extractLsb' 0 8) b)) := by
  rw [portWrite_of_le hp, BitVec.setWidth_eq_extractLsb' (by decide), if_pos hmap]

end Accesses

/-! ## The instructions -/

section Instructions

variable {s t : State} {rd rs : Reg} {b : Byte}

/-- `IN` ends as a move into `rd` does, in the state the port access leaves (45_io.md R280). -/
theorem exec_inPort_of_portRead (h : portRead (s.x rs) s = some (b, t)) :
    exec (.inPort rd rs) s = writeValue rd (0x00#8 ++ b) 2#16 t := by
  calc exec (.inPort rd rs) s
    _ = execInPort rd rs s := rfl
    _ = writeValue rd (zext8 b) 2#16 t := by rw [execInPort, h]; rfl
    _ = writeValue rd (0x00#8 ++ b) 2#16 t := by rw [zext8, setWidth_eq_zero_append]

/-- `OUT` advances in the state the port access leaves (R281). -/
theorem exec_outPort_of_portWrite (h : portWrite (s.x rd) ((s.x rs).extractLsb' 0 8) s = some t) :
    exec (.outPort rd rs) s = .next (t.advance 2#16) := by
  calc exec (.outPort rd rs) s
    _ = execOutPort rd rs s := rfl
    _ = .next (t.advance 2#16) := by rw [execOutPort, lowByte, h]; rfl

theorem faults_of_commitOrPortFault {i : Instr} {p : Word} {o : Option State} (ho : o = none)
    (h : exec i s = commitOrPortFault p s o) : Faults i .portOutOfRange p s := by
  subst ho
  exact h

theorem inPort_faults (hp : 255 < (s.x rs).toNat) : Faults (.inPort rd rs) .portOutOfRange (s.x rs) s :=
  faults_of_commitOrPortFault (Option.map_eq_none_iff.mpr ((portRead_eq_none _ s).mpr hp)) rfl

theorem outPort_faults (hp : 255 < (s.x rd).toNat) : Faults (.outPort rd rs) .portOutOfRange (s.x rd) s :=
  faults_of_commitOrPortFault (Option.map_eq_none_iff.mpr ((portWrite_eq_none _ _ s).mpr hp)) rfl

/-- `IN` from a mapped port is a move of the answer in the state after the one handler call, which differs on the
environment's side alone (R72). -/
theorem inPort_calls_readHandler (hp : (s.x rs).toNat ≤ 255) (hmap : (s.x rs).extractLsb' 0 8 ∈ s.env.readPorts) :
    ∃ t, exec (.inPort rd rs) s = .next t ∧ t.x rd = written rd (0x00#8 ++ s.env.answer) ∧
      t.env = (s.callReadHandler ((s.x rs).extractLsb' 0 8)).env ∧ t.flags = s.flags ∧ t.pc = s.pc + 2#16 ∧
      OtherRegisters s t [rd] ∧ OtherBytes s t [] ∧ SameControl s { t with env := s.env } :=
  ⟨_, exec_inPort_of_portRead (portRead_of_mapped hp hmap), x_setX_eq_written _ rd _, by simp, by simp, by simp,
    otherRegisters_setX (s.callReadHandler _) rd _, fun _ _ => by simp, by simp [SameControl]⟩

end Instructions

/-- Settles O58: above 255 the access has no result, which is the fault; an unmapped `IN` is a move of zero, an unmapped
`OUT` an advance; a mapped port adds its one handler call. -/
theorem portInstructions : Obligations.PortInstructions := by
  intro s rd rs
  refine ⟨compact_of_encode rfl rfl, compact_of_encode rfl rfl, inPort_faults, fun hp hmap => ?inUnmapped,
    fun hp hmap => ?inMapped, outPort_faults, fun hp hmap => ?outUnmapped, fun hp hmap => ?outMapped⟩
  case inUnmapped =>
    exact computes_of_writeValue (exec_inPort_of_portRead (portRead_of_unmapped hp hmap))
  case inMapped =>
    obtain ⟨t, hexec, hx, henv, hframe⟩ := inPort_calls_readHandler (rd := rd) hp hmap
    exact ⟨t, s.env.answer, hexec, answer_eq_headD s.env, hx, henv, hframe⟩
  case outUnmapped =>
    exact onlyFlagsAndPc_of_writeFlags (exec_outPort_of_portWrite (portWrite_of_unmapped hp hmap _))
  case outMapped =>
    exact ⟨_, exec_outPort_of_portWrite (portWrite_of_mapped hp hmap _), rfl, rfl, rfl, fun _ _ => rfl, fun _ _ => rfl,
      rfl, rfl, rfl, rfl, rfl, rfl⟩

end Sys2Proof.Proofs
end

section
/-! PROOFS. System instructions (46_system.md): each is one of the common ends or one field written, and what `EI`, `DI`
and `RETI` leave in `IE` decides the very next boundary. -/

namespace Sys2Proof.Proofs

open Sys2Proof.Machine Sys2Proof.Spec

/-! ## The flag image (10_state.md R40) -/

/-- `FLAGS16` as a sum of the flags at the weights of bits 7 to 3. -/
theorem flagImage_eq_ofNat (f : Flags) :
    flagImage f = BitVec.ofNat 16 (128 * f.n.toNat + 64 * f.z.toNat + 32 * f.c.toNat + 16 * f.v.toNat +
      8 * f.h.toNat) := by
  have hbits : ∀ n z c v h : Bool, flagImage ⟨n, z, c, v, h⟩ =
      BitVec.ofNat 16 (128 * n.toNat + 64 * z.toNat + 32 * c.toNat + 16 * v.toNat + 8 * h.toNat) := by decide
  exact hbits f.n f.z f.c f.v f.h

/-! ## Whether the next boundary accepts an interrupt (60_exceptions.md R319) -/

section Boundary

variable {i : Instr} {s t : State}

/-- The events of a boundary do not write `IE`. -/
@[simp] theorem deliver_ie (s : State) : s.deliver.ie = s.ie := by rw [State.deliver_eq]

/-- Where an interrupt is accepted there is a step, and it is the entry. -/
theorem step_of_readyToAccept (hr : ReadyToAccept s) : step s = interruptEntry s.deliver := by
  have haccept : s.deliver.acceptsInterrupt = true := acceptsInterrupt_of_readyToAccept hr
  obtain ⟨hrun, -⟩ := hr
  simp [step, stepAtBoundary, hrun, haccept]

/-- With `IE` set, a pending request is accepted at this boundary. -/
theorem readyToAccept_of_ie (hrun : s.run = .running) (hie : s.ie = true) (hip : s.deliver.ip = true) :
    ReadyToAccept s :=
  ⟨hrun, hip, by simpa using hie⟩

/-- With `IE` clear, none is, whatever is pending. -/
theorem readyToFetch_of_not_ie (hrun : s.run = .running) (hie : s.ie = false) : ReadyToFetch s :=
  ⟨hrun, by simp [hie]⟩

/-- An instruction without a cause to fault ends as the tables say. -/
theorem endsAs_of_causeOf_eq_none (hcause : causeOf i s = none) (h : exec i s = .next t) : EndsAs i s t := by
  rcases exec_next_cases h with ⟨-, hends⟩ | ⟨kind, info, hsome, -⟩
  · exact hends
  · cases hcause.symm.trans hsome

/-- So does an instruction after which the machine still runs: a fault would have stopped it. -/
theorem endsAs_of_running (hrun : t.run = .running) (h : exec i s = .next t) : EndsAs i s t := by
  rcases exec_next_cases h with ⟨-, hends⟩ | ⟨kind, info, -, rfl⟩
  · exact hends
  · cases hrun

end Boundary

/-- Settles O13: `EI` and `RETI` end with `IE` set and `DI` with `IE` clear, and `IE` decides the boundary. -/
theorem enableTakesEffectAtOnce : Obligations.EnableTakesEffectAtOnce := by
  intro s t hs
  refine ⟨fun hexec hip => ?ei, fun hexec hrun hip => ?reti, fun hexec => ?di⟩
  case ei =>
    have hends : EndsAs .ei s t := endsAs_of_causeOf_eq_none rfl hexec
    exact step_of_readyToAccept (readyToAccept_of_ie (hends.run.trans hs) hends.ie hip)
  case reti =>
    have hends : EndsAs .reti s t := endsAs_of_running hrun hexec
    exact step_of_readyToAccept (readyToAccept_of_ie hrun hends.ie hip)
  case di =>
    have hends : EndsAs .di s t := endsAs_of_causeOf_eq_none rfl hexec
    exact ⟨readyToFetch_of_not_ie (hends.run.trans hs) hends.ie, exec_ip hexec⟩

/-! ## The instructions -/

section Encodings

variable {c : Nibble} {i : Instr}

/-! The system table tests the fields that an instruction does not use for zero (30_encoding.md R107, R109). -/

theorem systemFields_mustBeZero (h : ∀ a b, decodeSystem a b c = mustBeZero2 a b i) :
    FieldsMustBeZero fun a b => word4 0xE#4 a b c :=
  fieldsMustBeZero_of_mustBeZero2 fun a b => (decode_system a b c).trans (h a b)

theorem systemSource_mustBeZero {rd : Reg} (h : ∀ b, decodeSystem rd b c = mustBeZero b i) :
    FieldMustBeZero fun b => word4 0xE#4 rd b c :=
  fieldMustBeZero_of_mustBeZero fun b => (decode_system rd b c).trans (h b)

theorem systemDest_mustBeZero {rs : Reg} (h : ∀ a, decodeSystem a rs c = mustBeZero a i) :
    FieldMustBeZero fun a => word4 0xE#4 a rs c :=
  fieldMustBeZero_of_mustBeZero fun a => (decode_system a rs c).trans (h a)

end Encodings

/-- `NOP` writes back the flags as they are (R290). -/
theorem exec_nop (s : State) : exec .nop s = writeFlags s.flags 2#16 s := rfl

/-- `GETF` writes the flag image as a move writes its value (R296). -/
theorem exec_getf (rd : Reg) (s : State) : exec (.getf rd) s = writeValue rd (flagImage s.flags) 2#16 s := rfl

/-- `SETF` writes the flags alone (R297). -/
theorem exec_setf (rs : Reg) (s : State) : exec (.setf rs) s = writeFlags (flagsOfImage (s.x rs)) 2#16 s := rfl

/-- Settles O59: `NOP` and `SETF` end in `writeFlags`, `GETF` and `GETIV` in `writeValue`, the others write one field. -/
theorem systemInstructions : Obligations.SystemInstructions := by
  intro s rd rs
  refine ⟨?nop, ?halt, ?ei, ?di, ?getf, ?setf, ?getiv, ?setiv, ?exx⟩
  case nop =>
    exact ⟨compact_of_encode rfl rfl, systemFields_mustBeZero fun _ _ => rfl, onlyFlagsAndPc_of_writeFlags (exec_nop s)⟩
  case halt | ei | di => exact ⟨compact_of_encode rfl rfl, systemFields_mustBeZero fun _ _ => rfl, rfl⟩
  case getf =>
    exact ⟨compact_of_encode rfl rfl, systemSource_mustBeZero fun _ => rfl,
      flagImage_eq_ofNat s.flags ▸ computes_of_writeValue (exec_getf rd s)⟩
  case setf =>
    exact ⟨compact_of_encode rfl rfl, systemDest_mustBeZero fun _ => rfl, onlyFlagsAndPc_of_writeFlags (exec_setf rs s)⟩
  case getiv =>
    exact ⟨compact_of_encode rfl rfl, systemSource_mustBeZero fun _ => rfl, computes_of_writeValue rfl⟩
  case setiv => exact ⟨compact_of_encode rfl rfl, systemDest_mustBeZero fun _ => rfl, rfl⟩
  case exx =>
    exact ⟨compact_of_encode rfl rfl, fieldsMustBeZero_of_mustBeZero2 fun a b => decode_misc a b 0x9#4, exec_exx s⟩

end Sys2Proof.Proofs
end

section
/-! PROOFS. Faults, interrupts and the order of a step (60_exceptions.md): the branches of the step, what entering the
vector and returning from it leave, and what a fault reports. -/

namespace Sys2Proof.Proofs

open Sys2Proof.Machine Sys2Proof.Spec

/-! ## The branches of the step (R319) -/

section Branches

variable {s : State}

theorem exists_fault_of_not_running (h : s.run ≠ .running) : ∃ f, step s = .fault f := by
  cases hrun : s.run with
  | running => exact absurd hrun h
  | halted => exact ⟨_, step_halted hrun⟩
  | faulted kind addr => exact ⟨_, step_faulted hrun⟩

/-- A boundary of a running machine either accepts an interrupt or leads to a fetch. -/
theorem readyToAccept_or_readyToFetch (hrun : s.run = .running) : ReadyToAccept s ∨ ReadyToFetch s := by
  by_cases h : s.deliver.ip = true ∧ s.deliver.ie = true
  · exact .inl ⟨hrun, h⟩
  · exact .inr ⟨hrun, h⟩

/-- A step whose fetch needs a byte past 0xFFFF faults with `pc` as detail (R314). -/
theorem step_of_truncated (hr : ReadyToFetch s) (ht : s.fetchDecode = .truncatedFetch) :
    step s = .next (faultedState .truncatedFetch s.pc s.deliver) := by
  have ⟨hrun, _⟩ := hr
  have haccept : s.deliver.acceptsInterrupt = false := not_acceptsInterrupt_of_readyToFetch hr
  simp [step, stepAtBoundary, hrun, haccept, fetchDecode_deliver, ht, raise_eq, faultedState, State.emit]

theorem step_of_fetch_truncated (hr : ReadyToFetch s) (hf : fetch s.mem s.pc = .truncated) :
    step s = .next (faultedState .truncatedFetch s.pc s.deliver) :=
  step_of_truncated hr (congrArg decode hf)

end Branches

/-- Settles O1: the step that fetches an instruction executes it, and the delivery is `State.deliver_eq`. -/
theorem stepRunsDecodedInstruction : Obligations.StepRunsDecodedInstruction :=
  fun s _ hr hi => ⟨step_of_fetchDecode hr hi, State.deliver_eq s⟩

/-- Settles O2, one branch of the step after the other. -/
theorem stepOrderOfEvents : Obligations.StepOrderOfEvents := by
  refine fun s => ⟨exists_fault_of_not_running, step_of_readyToAccept, fun hr =>
    ⟨step_of_fetch_truncated hr, fun w0 hf hdec => ?compact, fun w0 w1 hf hdec => ?extended,
      fun i => step_of_fetchDecode hr⟩⟩
  case compact =>
    obtain ⟨hw, -⟩ := fetch_eq_compact hf
    rw [step_of_undefined hr ((congrArg decode hf).trans hdec), hw]
  case extended =>
    obtain ⟨hw, -⟩ := fetch_eq_extended hf
    rw [step_of_undefined hr ((congrArg decode hf).trans hdec), hw]

/-! ## The top of memory (R314) -/

/-- At 0xFFFF not even the first word is fetched (20_memory.md R66). -/
theorem fetch_top (m : Memory) : fetch m 0xFFFF#16 = .truncated := rfl

/-- Settles O4: the fetch is truncated at 0xFFFF and before the second word's end, elsewhere the bytes at `pc` run. -/
theorem fetchBeyondMemoryFaults : Obligations.FetchBeyondMemoryFaults := by
  refine fun s hr => ⟨fun htop => step_of_fetch_truncated hr ?truncated,
    fun i hwf _ _ hbytes => encodedInstructionRuns s i hwf hbytes hr,
    fun i hwf _ _ hbytes => encodedInstructionRuns s i hwf hbytes hr, fun hpc hbytes => ?nop,
    fun rd v hpc hbytes => ?li⟩
  case truncated =>
    rcases htop with hpc | ⟨hpc, hop⟩
    · rw [hpc, fetch_top]
    · have hx : isExtended (wordIn s s.pc) = true := by simpa [isExtended, nib3] using hop
      exact fetch_truncated_of_extended hpc rfl hx
  case nop =>
    refine ⟨_, encodedInstructionRuns s .nop rfl hbytes hr, ?_⟩
    simp [hpc]
  case li =>
    refine ⟨_, encodedInstructionRuns s (.li rd v) rfl hbytes hr, ?_, x_setX_eq_written s.deliver rd v⟩
    simp [hpc]

/-! ## Entering the vector and returning from it (R320, R322, R325) -/

/-- What both transfers keep: every register but `SP`, the flags, `ALT`, `IV`, `IP`, `RUN`, the environment's side. -/
structure MovesOnlySP (s t : State) : Prop where
  registers : OtherRegisters s t [2#4]
  flags : t.flags = s.flags
  alt : t.alt = s.alt
  iv : t.iv = s.iv
  ip : t.ip = s.ip
  run : t.run = s.run
  env : t.env = s.env

/-- `t` is `s` with `ret` pushed, `IE` clear and `pc` at `IV`. -/
structure EntersVector (ret : Word) (s t : State) : Prop extends MovesOnlySP s t where
  low : t.mem.read (s.x 2#4 - 2#16) = ret.extractLsb' 0 8
  high : t.mem.read (s.x 2#4 - 1#16) = ret.extractLsb' 8 8
  bytes : OtherBytes s t [s.x 2#4 - 2#16, s.x 2#4 - 1#16]
  sp : t.x 2#4 = s.x 2#4 - 2#16
  ie : t.ie = false
  pc : t.pc = s.iv

/-- `t` is `s` with `pc` popped and `IE` set. -/
structure ReturnsFromInterrupt (s t : State) : Prop extends MovesOnlySP s t where
  bytes : OtherBytes s t []
  sp : t.x 2#4 = s.x 2#4 + 2#16
  ie : t.ie = true
  pc : t.pc = wordIn s (s.x 2#4)

section Transfers

variable {ret : Word} {s t : State}

theorem entersVector_of_enterVector (h : enterVector ret s = some t) : EntersVector ret s t := by
  obtain ⟨u, hu, rfl⟩ := enterVector_some h
  obtain ⟨m, hm, rfl⟩ := push16_some hu
  obtain ⟨hlo, hhi, -, -⟩ := writeWord_reads hm
  exact {
    registers := otherRegisters_setX { s with mem := m } 2#4 (s.x 2#4 - 2#16)
    flags := State.setX_flags _ _ _
    alt := State.setX_alt _ _ _
    iv := State.setX_iv _ _ _
    ip := State.setX_ip _ _ _
    run := State.setX_run _ _ _
    env := State.setX_env _ _ _
    low := by simpa using hlo
    high := by simpa [sub_two_add_one] using hhi
    bytes := sub_two_add_one _ ▸ otherBytes_of_writeWord hm (by simp)
    sp := State.x_setX_same { s with mem := m } _ (by decide)
    ie := rfl
    pc := State.setX_iv _ _ _ }

/-- Away from `SP` = 1 the vector is entered. -/
theorem exists_enterVector_of_ne (hsp : s.x 2#4 ≠ 0x0001#16) (ret : Word) :
    ∃ t, enterVector ret s = some t ∧ EntersVector ret s t := by
  obtain ⟨t, ht⟩ := Option.ne_none_iff_exists'.mp fun hnone => hsp ((enterVector_eq_none ret s).mp hnone)
  exact ⟨t, ht, entersVector_of_enterVector ht⟩

theorem returnsFromInterrupt_of_returnFromInterrupt (h : returnFromInterrupt s = some t) :
    ReturnsFromInterrupt s t := by
  obtain ⟨v, u, hu, rfl⟩ := returnFromInterrupt_some h
  have hsp : s.x 2#4 ≠ 0xFFFF#16 := fun e => by simp [(pop16_eq_none s).mpr e] at hu
  obtain ⟨hv, rfl⟩ := pop16_some hu
  exact {
    registers := otherRegisters_setX s 2#4 (s.x 2#4 + 2#16)
    flags := State.setX_flags _ _ _
    alt := State.setX_alt _ _ _
    iv := State.setX_iv _ _ _
    ip := State.setX_ip _ _ _
    run := State.setX_run _ _ _
    env := State.setX_env _ _ _
    bytes := fun _ _ => by simp
    sp := State.x_setX_same s _ (by decide)
    ie := rfl
    pc := Option.some.inj (hv.symm.trans (Memory.readWord_of_ne s.mem hsp)) }

theorem swi_completes (hsp : s.x 2#4 ≠ 0x0001#16) : ∃ t, exec .swi s = .next t ∧ EntersVector (s.pc + 2#16) s t := by
  obtain ⟨t, ht, henters⟩ := exists_enterVector_of_ne hsp (s.pc + 2#16)
  exact ⟨t, congrArg (commitOrMemFault 0xFFFF#16 s) ht, henters⟩

theorem reti_completes (hsp : s.x 2#4 ≠ 0xFFFF#16) : ∃ t, exec .reti s = .next t ∧ ReturnsFromInterrupt s t := by
  obtain ⟨t, ht⟩ := Option.ne_none_iff_exists'.mp fun hnone => hsp ((returnFromInterrupt_eq_none s).mp hnone)
  exact ⟨t, congrArg (commitOrMemFault 0xFFFF#16 s) ht, returnsFromInterrupt_of_returnFromInterrupt ht⟩

/-- Interrupt entry enters the vector from the instruction not yet executed and clears `IP` (R320). -/
theorem interruptEntry_completes (hsp : s.x 2#4 ≠ 0x0001#16) :
    ∃ t, interruptEntry s = .next { t with ip := false } ∧ EntersVector s.pc s t := by
  obtain ⟨t, ht, henters⟩ := exists_enterVector_of_ne hsp s.pc
  exact ⟨t, by simp [interruptEntry, ht], henters⟩

theorem interruptEntry_faults (hsp : s.x 2#4 = 0x0001#16) :
    interruptEntry s = .next (faultedState .memOutOfRange 0xFFFF#16 s) := by
  rw [interruptEntry, (enterVector_eq_none s.pc s).mpr hsp]
  rfl

end Transfers

/-- Settles O11, from what entering the vector and returning from it leave. -/
theorem softwareInterruptAndReturn : Obligations.SoftwareInterruptAndReturn := by
  intro s
  refine ⟨compact_of_encode rfl rfl, systemFields_mustBeZero fun _ _ => rfl, compact_of_encode rfl rfl,
    systemFields_mustBeZero fun _ _ => rfl, fun hsp => ?swi, fun hsp => ?swiFault, fun hsp => ?reti,
    fun hsp => ?retiFault⟩
  case swi =>
    obtain ⟨t, hexec, h⟩ := swi_completes hsp
    exact ⟨t, hexec, h.low, h.high, h.bytes, h.sp, h.registers, h.ie, h.pc, h.ip, h.iv, h.flags, h.alt, h.run, h.env⟩
  case swiFault => exact faults_of_commitOrMemFault ((enterVector_eq_none _ s).mpr hsp) rfl
  case reti =>
    obtain ⟨t, hexec, h⟩ := reti_completes hsp
    exact ⟨t, hexec, h.pc, h.ie, h.sp, h.registers, h.bytes, h.ip, h.iv, h.flags, h.alt, h.run, h.env⟩
  case retiFault => exact faults_of_commitOrMemFault ((returnFromInterrupt_eq_none s).mpr hsp) rfl

/-! ## A step that accepts an interrupt (R319, R320)

Its entry is from the delivered state, whose registers and memory are those of the state before. -/

@[simp] theorem deliver_x (s : State) (i : Reg) : s.deliver.x i = s.x i :=
  x_eq_of_phys_eq (deliver_alt s) (deliver_phys s) i

theorem otherBytes_of_deliver {s t : State} {touched : List Word} (h : OtherBytes s.deliver t touched) :
    OtherBytes s t touched := by
  simpa [OtherBytes] using h

theorem otherRegisters_of_deliver {s t : State} {indices : List Reg} (h : OtherRegisters s.deliver t indices) :
    OtherRegisters s t indices := by
  simpa [OtherRegisters] using h

theorem accepting_step_completes {s : State} (hr : ReadyToAccept s) (hsp : s.x 2#4 ≠ 0x0001#16) :
    ∃ t, step s = .next { t with ip := false } ∧ EntersVector s.pc s.deliver t := by
  have hsp' : s.deliver.x 2#4 ≠ 0x0001#16 := by simpa using hsp
  obtain ⟨t, ht, henters⟩ := interruptEntry_completes hsp'
  exact ⟨t, (step_of_readyToAccept hr).trans ht, by simpa using henters⟩

theorem accepting_step_faults {s : State} (hr : ReadyToAccept s) (hsp : s.x 2#4 = 0x0001#16) :
    step s = .next (faultedState .memOutOfRange 0xFFFF#16 s.deliver) :=
  (step_of_readyToAccept hr).trans (interruptEntry_faults (by simpa using hsp))

/-- Settles O8: the entry is `EntersVector` from the delivered state, and `IP` clear. -/
theorem interruptEntrySavesAndVectors : Obligations.InterruptEntrySavesAndVectors := by
  refine fun s hr => ⟨fun hsp => ?enters, fun hsp => ?faults⟩
  case enters =>
    obtain ⟨t, hstep, h⟩ := accepting_step_completes hr hsp
    have ⟨hrun, _⟩ := hr
    have hbytes : OtherBytes s t [s.x 2#4 - 2#16, s.x 2#4 - 1#16] := by
      simpa using otherBytes_of_deliver h.bytes
    exact ⟨_, hstep, by simpa using h.low, by simpa using h.high, hbytes,
      by simpa using h.sp, otherRegisters_of_deliver h.registers, h.ie, rfl, by simpa using h.pc, by simpa using h.iv,
      by simpa using h.flags, by simpa using h.alt, by simpa [hrun] using h.run, h.env⟩
  case faults =>
    have ⟨_, hip, hie⟩ := hr
    exact ⟨_, accepting_step_faults hr hsp, rfl, deliver_pc s, hie, hip⟩

/-! ## The end of a handler (R323, R325) -/

section Handler

variable {ret : Word} {s t : State}

/-- After an entry the saved address stands at the new `SP`. -/
theorem EntersVector.wordIn_sp (he : EntersVector ret s t) : wordIn t (s.x 2#4 - 2#16) = ret :=
  wordIn_of_bytes he.low (sub_two_add_one _ ▸ he.high)

/-- Both ways into the vector leave the return address on the stack, two bytes below the old `SP`. -/
theorem saved_after_entry (hsp : s.x 2#4 ≠ 0x0001#16)
    (hentry : (ReadyToAccept s ∧ step s = .next t ∧ ret = s.pc) ∨ (exec .swi s = .next t ∧ ret = s.pc + 2#16)) :
    t.x 2#4 = s.x 2#4 - 2#16 ∧ wordIn t (s.x 2#4 - 2#16) = ret := by
  rcases hentry with ⟨hr, hstep, rfl⟩ | ⟨hexec, rfl⟩
  · obtain ⟨u, hu, he⟩ := accepting_step_completes hr hsp
    cases hu.symm.trans hstep
    have hword : wordIn u (s.x 2#4 - 2#16) = s.pc := by simpa using he.wordIn_sp
    exact ⟨by simpa using he.sp, hword⟩
  · obtain ⟨u, hu, he⟩ := swi_completes hsp
    cases hu.symm.trans hexec
    exact ⟨he.sp, he.wordIn_sp⟩

end Handler

/-- Settles O12: the entry leaves the address at the new `SP`, which is in range, and `RETI` pops it. -/
theorem handlerReturnResumes : Obligations.HandlerReturnResumes := by
  intro s t h ret hsp hentry hx hlo hhi
  obtain ⟨htx, hword⟩ := saved_after_entry hsp hentry
  have hhx : h.x 2#4 = s.x 2#4 - 2#16 := hx.trans htx
  have hsaved : wordIn h (h.x 2#4) = ret := by
    rw [← hword, ← htx, hx, wordIn, wordIn, hlo, hhi]
  have htop : h.x 2#4 ≠ 0xFFFF#16 := hhx ▸ mt (sub_two_eq_top _).mp hsp
  obtain ⟨v, hexec, hv⟩ := reti_completes htop
  have hback : v.x 2#4 = s.x 2#4 := by rw [hv.sp, hhx, BitVec.sub_add_cancel]
  exact ⟨v, hexec, hv.pc.trans hsaved, hback, hv.ie, hv.flags, hv.alt, hv.iv, hv.ip, hv.run, hv.env, hv.registers,
    hv.bytes⟩

/-! ## Causes of faults (R315 to R317) -/

theorem runAfter_eq_ite (i : Instr) (s : State) : runAfter i s = if i = .halt then .halted else s.run := by
  unfold runAfter
  split
  next => rfl
  next h => exact (if_neg h).symm

/-- Settles O7, from the table of what every instruction answers. -/
theorem execFaultsExactlyWhenCaused : Obligations.ExecFaultsExactlyWhenCaused := by
  refine ⟨fun i s => ⟨fun kind info hcause => ?faults, fun hcause => ?completes⟩, fun s => accepting_step_faults⟩
  case faults =>
    cases exec_answers i s with
    | faults k w hc hres =>
      cases hc.symm.trans hcause
      exact hres
    | completes t hc => cases hc.symm.trans hcause
  case completes =>
    cases exec_answers i s with
    | faults k w hc => cases hc.symm.trans hcause
    | completes t hc hres hends => exact ⟨t, hres, hends.run.trans (runAfter_eq_ite i s)⟩

/-! ## What a fault reports (R310, R312) -/

/-- The detail value of each kind: the first word, the address of the instruction, the address 0xFFFF, or a port number
out of range (R310). -/
def IsDetail (s : State) (info : Word) : FaultKind → Prop
  | .undefinedOpcode => info = wordIn s s.pc
  | .truncatedFetch => info = s.pc
  | .memOutOfRange => info = 0xFFFF#16
  | .portOutOfRange => 255 < info.toNat
  | .divideByZero => info = s.pc

section Reports

variable {s t : State} {kind : FaultKind} {info : Word}

theorem isDetail_of_deliver (h : IsDetail s.deliver info kind) : IsDetail s info kind := by
  cases kind <;> simpa [IsDetail, wordIn] using h

/-- The table over all instructions: each cause carries its kind's detail. -/
theorem isDetail_of_causeOf {i : Instr} (h : causeOf i s = some (kind, info)) : IsDetail s info kind := by
  cases i with
  | lw | sw | lwExt | swExt | push | swi | pop | reti | div | divu | rem | remu =>
    obtain ⟨-, hc⟩ := Option.ite_none_right_eq_some.mp h
    cases hc
    rfl
  | inPort | outPort =>
    obtain ⟨hport, hc⟩ := Option.ite_none_right_eq_some.mp h
    cases hc
    exact hport
  | _ => cases h

/-- `t` is the faulted state of `s` with a proper report, or is not faulted at all. -/
def FaultsOnlyWithReport (s t : State) : Prop :=
  (∃ kind info, t = faultedState kind info s ∧ IsDetail s info kind) ∨ ∀ kind addr, t.run ≠ .faulted kind addr

theorem exec_faultsOnlyWithReport {i : Instr} (hs : s.run = .running) (h : exec i s = .next t) :
    FaultsOnlyWithReport s t := by
  rcases exec_next_cases h with ⟨-, hends⟩ | ⟨kind, info, hcause, rfl⟩
  · exact .inr fun kind addr => hends.run ▸ runAfter_ne_faulted i hs kind addr
  · exact .inl ⟨kind, info, rfl, isDetail_of_causeOf hcause⟩

theorem interruptEntry_faultsOnlyWithReport (hs : s.run = .running) (h : interruptEntry s = .next t) :
    FaultsOnlyWithReport s t := by
  rcases interruptEntry_next_cases h with ⟨u, rfl, hends⟩ | rfl
  · have hrun : u.run = .running := hends.run.trans hs
    exact .inr fun kind addr => by simp [hrun]
  · exact .inl ⟨_, _, rfl, rfl⟩

/-- Every branch of the step: the entry, the executed instruction, and the two decode faults. -/
theorem step_faultsOnlyWithReport (hs : s.run = .running) (h : step s = .next t) :
    FaultsOnlyWithReport s.deliver t := by
  have hd : s.deliver.run = .running := by simpa using hs
  rcases readyToAccept_or_readyToFetch hs with hr | hr
  · exact interruptEntry_faultsOnlyWithReport hd (interruptEntry_of_readyToAccept hr h)
  cases hf : s.fetchDecode with
  | ok i => exact exec_faultsOnlyWithReport hd ((step_of_fetchDecode hr hf).symm.trans h)
  | undefinedOpcode =>
    cases (step_of_undefined hr hf).symm.trans h
    exact .inl ⟨_, _, rfl, by simp [IsDetail, wordIn, Memory.wordAt, wordOfBytes]⟩
  | truncatedFetch =>
    cases (step_of_truncated hr hf).symm.trans h
    exact .inl ⟨_, _, rfl, by simp [IsDetail]⟩

end Reports

/-- Settles O6: a step that ends faulted ends in `faultedState` of the delivered state, with its kind's detail. -/
theorem faultCommitsNothing : Obligations.FaultCommitsNothing := by
  intro s t kind addr hs hstep hrun
  rcases step_faultsOnlyWithReport hs hstep with ⟨kind', info, ht, hdetail⟩ | hnone
  · have hreport : RunState.faulted kind' s.deliver.pc = .faulted kind addr := by rw [← hrun, ht, faultedState_run]
    obtain ⟨rfl, hpc⟩ := RunState.faulted.inj hreport
    have hinfo : IsDetail s info kind' := isDetail_of_deliver hdetail
    refine ⟨info, ht, by simpa using hpc.symm, step_faulted hrun, ?_, ?_, ?_, ?_, ?_⟩ <;> (rintro rfl; exact hinfo)
  · exact absurd hrun (hnone kind addr)

end Sys2Proof.Proofs
end

section
/-! PROOFS. The loading of an image (70_reset_and_hazards.md R351): what memory holds after consecutive bytes are placed,
when the load is refused, and the first instruction of an empty image. -/

namespace Sys2Proof.Proofs

open Sys2Proof.Machine Sys2Proof.Spec

/-! ## Memory after consecutive bytes are placed -/

section PlacedBytes

variable {m : Memory} {base a : Word} {b : Byte} {bytes : List Byte} {k : Nat}

theorem next_add_ofNat (base : Word) (k : Nat) : base + 1#16 + BitVec.ofNat 16 k = base + BitVec.ofNat 16 (k + 1) := by
  simpa using stepped_succ 1#16 base k

/-- Fewer than 2^16 steps upward do not come back to the start. -/
theorem ne_add_ofNat_of_pos (hpos : 0 < k) (hk : k < 0x10000) : base ≠ base + BitVec.ofNat 16 k := by
  bv_omega

theorem read_writeBytes_of_ne (h : ∀ k, k < bytes.length → a ≠ base + BitVec.ofNat 16 k) :
    (m.writeBytes base bytes).read a = m.read a := by
  induction bytes generalizing m base with
  | nil => rfl
  | cons b rest ih =>
    have hfirst : a ≠ base := by simpa using h 0 (Nat.zero_lt_succ _)
    have hrest : ∀ k, k < rest.length → a ≠ base + 1#16 + BitVec.ofNat 16 k := fun k hk =>
      next_add_ofNat base k ▸ h (k + 1) (Nat.succ_lt_succ hk)
    exact (ih hrest).trans (Memory.read_write_other m b hfirst)

/-- At most 2^16 bytes have distinct addresses, so none is written over by a later one. -/
theorem read_writeBytes_of_getElem? (hlen : bytes.length ≤ 0x10000) (hk : bytes[k]? = some b) :
    (m.writeBytes base bytes).read (base + BitVec.ofNat 16 k) = b := by
  induction bytes generalizing m base k with
  | nil => cases hk
  | cons c rest ih =>
    rw [List.length_cons] at hlen
    cases k with
    | zero =>
      obtain rfl : c = b := Option.some.inj hk
      have hkept : ∀ j, j < rest.length → base ≠ base + 1#16 + BitVec.ofNat 16 j := fun j hj =>
        next_add_ofNat base j ▸ ne_add_ofNat_of_pos (Nat.succ_pos j) (by omega)
      rw [BitVec.add_zero]
      exact (read_writeBytes_of_ne hkept).trans (Memory.read_write_same m base c)
    | succ k =>
      rw [← next_add_ofNat]
      exact ih (by omega) hk

end PlacedBytes

/-! ## The start of a run (R351) -/

section Boot

variable {base : Word} {mem : Memory} {image : List Byte} {s : State}

theorem bootImage_eq_none_iff : bootImage base mem image = none ↔ 0x10000 < base.toNat + image.length := by
  simp [bootImage]

theorem bootImage_of_fits (h : base.toNat + image.length ≤ 0x10000) :
    bootImage base mem image = some (State.resetAt base (mem.writeBytes base image)) :=
  if_neg (Nat.not_lt.mpr h)

/-- A load that is not refused fits, and starts from reset with the image's bytes placed. -/
theorem fits_and_eq_of_bootImage (h : bootImage base mem image = some s) :
    base.toNat + image.length ≤ 0x10000 ∧ s = State.resetAt base (mem.writeBytes base image) := by
  obtain ⟨hfits, hs⟩ := Option.ite_none_left_eq_some.mp h
  exact ⟨Nat.not_lt.mp hfits, (Option.some.inj hs).symm⟩

theorem encodeBytes_add_zero : encodeBytes (.add 0#4 0#4 0#4) = List.replicate 2 0x00#8 := by decide

/-- Zero memory holds the word 0x0000 wherever a whole word fits (R113). -/
theorem holdsAtPc_add_zero_resetAt (h : base ≠ 0xFFFF#16) : HoldsAtPc (State.resetAt base []) (.add 0#4 0#4 0#4) := by
  rw [HoldsAtPc, encodeBytes_add_zero]
  refine ⟨?_, fun k b hb => ?_⟩
  · change base.toNat + 2 ≤ 0x10000
    bv_omega
  · exact (List.eq_of_mem_replicate (List.mem_of_getElem? hb)).symm

end Boot

/-- Settles O17: the load is a reset after the bytes are placed, and an image that fits has fewer bytes than memory. -/
theorem imageLoad : Obligations.ImageLoad := by
  refine ⟨fun base mem image => ⟨bootImage_eq_none_iff, fun s hs => ?_⟩, fun base hbase => ?_⟩
  · obtain ⟨hfits, rfl⟩ := fits_and_eq_of_bootImage hs
    have hlen : image.length ≤ 0x10000 := by omega
    exact ⟨rfl, fun k b hk => read_writeBytes_of_getElem? hlen hk, fun a ha => read_writeBytes_of_ne ha⟩
  · have hfits : base.toNat + ([] : List Byte).length ≤ 0x10000 := by simpa using base.isLt.le
    exact ⟨_, bootImage_of_fits hfits, rfl, fetchDecode_of_holdsAtPc rfl (holdsAtPc_add_zero_resetAt hbase)⟩

end Sys2Proof.Proofs
end
